-- ==== Sys2Proof/Word.lean ====
section
/-! DEFINITION. The word types of the block (00_scope.md R9): a byte is 8 bits, a USB field 16 bits. -/

namespace Sys2Proof

/-- An unsigned byte, bit 0 least significant (00_scope.md R9). -/
abbrev Byte := BitVec 8

/-- An unsigned 16-bit USB field or timestamp (00_scope.md R9). -/
abbrev Half := BitVec 16

end Sys2Proof
end

