-- ==== Sys2Proof/Config.lean ====
section
/-! DEFINITION. The parameters of the block (00_scope.md R7), the inputs of a run (R8), and the values that the spec
leaves free. The parameters are one record of plain data, which State holds (R70 (6): they are a port of the block), so
that every claim about a state holds for every value of every parameter. -/

namespace Sys2Proof

/-- The sizes that endpoint 0's packets may have: parameter `EP0_SIZE` (00_scope.md R7). -/
inductive Ep0Size where
  | s8
  | s16
  | s32
  | s64
deriving DecidableEq, Repr

/-- The number of bytes of an endpoint-0 packet. -/
def Ep0Size.bytes : Ep0Size → Nat
  | .s8 => 8
  | .s16 => 16
  | .s32 => 32
  | .s64 => 64

/-- The descriptor set, parameter `DESC`: the byte lists that (descriptor type, index) select
(20_memory.md R100, 40_usb_control.md R209, R212). -/
structure DescriptorSet where
  /-- The device descriptor. -/
  device : List Byte
  /-- The whole configuration descriptor set. -/
  config : List Byte
  /-- The string descriptors by index, `none` where the set has no string of that index. -/
  strings : List (Option (List Byte))
deriving DecidableEq, Repr

/-- A transaction of a self-test stage (43_can_config.md R421): any of the serial-bus commands
(30_encoding.md R161). A WRITE may have no data byte and a LOAD TX fewer than 5 or more than 13, which no rule says of a
stage. DESIGN CHOICE (assumption 34). -/
inductive TestTxn where
  | reset
  | read (a : Byte)
  | write (a : Byte) (ds : List Byte)
  | bitModify (a m d : Byte)
  | readStatus
  | loadTx (slot : Fin 3) (ds : List Byte)
  | readRx (buffer : Fin 2)
deriving DecidableEq, Repr

/-- A self-test stage (43_can_config.md R421): its transactions, and the pins it expects after them. -/
structure SelfTestStage where
  txns : List TestTxn
  rx0 : Bool
  rx1 : Bool
  err : Bool
deriving DecidableEq, Repr

/-- The three CNF bytes of a bit-rate preset (43_can_config.md R404). -/
structure Timing where
  cnf1 : Byte
  cnf2 : Byte
  cnf3 : Byte
deriving DecidableEq, Repr, Inhabited

/-- What is known of one register of the CAN controller chip. -/
structure RegisterInfo where
  /-- The bits that a write changes (43_can_config.md R401). -/
  writable : Byte
  /-- The register supports bit modify (42_serial_bus.md R355). -/
  bitModify : Bool
  /-- The chip lets it be written in configuration mode only (60_exceptions.md R613 item 5). -/
  configOnly : Bool
  /-- The value that RESET gives it, if there is one (42_serial_bus.md R352). -/
  reset : Option Byte
  /-- The bits that the chip may change on its own for a reason that no rule gives
  (93_implementation_defined.md U3, assumption 36). -/
  own : Byte
deriving DecidableEq, Repr, Inhabited

/-- Parameter `CHIP`: the command bytes, the register addresses and the bit positions of the CAN controller chip
(00_scope.md R7, 42_serial_bus.md R351, 43_can_config.md R400, R401), with the agent's own facts about each of its
registers. The identifier image and the header bits of 44_can_tx.md R455, R457 and 45_can_rx.md R504 and the codes of
the operating modes (43_can_config.md R424) are literal in their rules and are not here (assumption 5). -/
structure ChipTable where
  cmdReset : Byte
  cmdRead : Byte
  cmdWrite : Byte
  cmdBitModify : Byte
  cmdReadStatus : Byte
  /-- `LOAD_TX(s)`. -/
  cmdLoadTx : Vector Byte 3
  /-- `READ_RX(b)`. -/
  cmdReadRx : Vector Byte 2
  /-- RXF0 to RXF5: the first of each filter's four addresses. -/
  rxf : Vector Byte 6
  /-- RXM0 and RXM1: the first of each mask's four addresses. -/
  rxm : Vector Byte 2
  bfpctrl : Byte
  canstat : Byte
  canctrl : Byte
  tecReg : Byte
  recReg : Byte
  cnf1 : Byte
  cnf2 : Byte
  cnf3 : Byte
  caninte : Byte
  canintf : Byte
  eflg : Byte
  /-- TXBsCTRL; the slot's SIDH is the next address. -/
  txbctrl : Vector Byte 3
  rxbctrl : Vector Byte 2
  /-- Receive buffer b's SIDH, which 42_serial_bus.md R351 names and 43_can_config.md R400 gives no address
  (assumption 39). -/
  rxbsidh : Vector Byte 2
  /-- READ STATUS: the bits that show RXbIF, and TXREQ and TXIF of the slots. -/
  statusRxif : Vector (Fin 8) 2
  statusTxreq : Vector (Fin 8) 3
  statusTxif : Vector (Fin 8) 3
  /-- TXBsCTRL: TXREQ, and the lower bit of the two of TXP. -/
  txreq : Fin 8
  txp : Fin 7
  /-- The SIDL of a filter and of a mask: the lowest bit of SID2 to SID0, EXIDE, and the lower bit of EID17 and EID16. -/
  sid : Fin 6
  exide : Fin 8
  eid : Fin 7
  /-- RXB0CTRL: BUKT. -/
  bukt : Fin 8
  /-- BFPCTRL: BbBFM, BbBFE and BbBFS. -/
  bfm : Vector (Fin 8) 2
  bfe : Vector (Fin 8) 2
  bfs : Vector (Fin 8) 2
  /-- CANINTE and CANINTF: RXb, TXs and ERR. -/
  rxif : Vector (Fin 8) 2
  txif : Vector (Fin 8) 3
  errif : Fin 8
  /-- EFLG. -/
  ewarn : Fin 8
  rxep : Fin 8
  txep : Fin 8
  txbo : Fin 8
  rxovr : Vector (Fin 8) 2
  /-- CANSTAT and CANCTRL: the lowest bit of the three of the operating mode. -/
  opmod : Fin 6
  /-- The registers of the chip by address. -/
  regs : Vector RegisterInfo 128
deriving DecidableEq, Repr

/-- The command bytes of the chip. -/
def ChipTable.commands (m : ChipTable) : List Byte :=
  [m.cmdReset, m.cmdRead, m.cmdWrite, m.cmdBitModify, m.cmdReadStatus] ++ m.cmdLoadTx.toList ++ m.cmdReadRx.toList

/-- The parameters of 00_scope.md R7 and the per-run inputs of R8. -/
structure Params where
  /-- `EP0_SIZE`. -/
  ep0Size : Ep0Size
  /-- `BULK_SIZE`, 1 to 64. -/
  bulkSize : { n : Nat // 1 ≤ n ∧ n ≤ 64 }
  /-- `IDLE_FLUSH_POLLS`, at least 1. -/
  idleFlushPolls : { n : Nat // 1 ≤ n }
  /-- `SEND_ZLP`. -/
  sendZlp : Bool
  /-- `VID`, `PID`, `MFR_STR` and `PROD_STR`, from which the reference descriptor set is made (40_usb_control.md
  R209). -/
  vid : Half
  pid : Half
  mfrStr : List Half
  prodStr : List Half
  /-- `SERIAL_TEMPLATE`. -/
  serialTemplate : Vector Byte 4
  /-- `DESC`: a descriptor set, or `none` for the reference set of the other parameters (40_usb_control.md R209). -/
  desc : Option DescriptorSet
  /-- `EP_NOTIFY`. -/
  epNotify : Byte
  /-- `EP_OUT`. -/
  epOut : Byte
  /-- `EP_IN`. -/
  epIn : Byte
  /-- `CONFIG_VALUE`. -/
  configValue : Byte
  /-- `SERIAL_SLOTS`: the offsets that receive serial characters 0 to 3. Two of them may be equal (assumption 37). -/
  serialSlots : Vector Nat 4
  /-- `SERIAL_STR_INDEX`: in the reference set the template stands at this index (assumption 40). -/
  serialStrIndex : Byte
  /-- `LINE_CODING_RESET`. -/
  lineCodingReset : Vector Byte 7
  /-- `CHIP`. -/
  chip : ChipTable
  /-- `PRESET[0..8]`. -/
  preset : Vector Timing 9
  /-- `SELFTEST`. -/
  selfTest : Vector SelfTestStage 4
  /-- `INTE_AFTER_INIT`. -/
  inteAfterInit : Byte
  /-- `RX_LAST_RESET`. -/
  rxLastReset : Fin 2
  /-- `SPI_MODE`: clock polarity. -/
  spiCpol : Bool
  /-- `SPI_MODE`: clock phase. -/
  spiCpha : Bool
  /-- `SERIAL_AVAILABLE`. -/
  serialAvailable : Bool
  /-- `SERIAL`, read only when it is available. -/
  serial : Vector Byte 4
deriving DecidableEq, Repr

namespace Config

/-! ### Parameters that the spec leaves OPEN (92_eei_decisions.md D8, D9, D17, D18, D49) and the inputs of a run -/

/-- `IDLE_FLUSH_POLLS` less one (OPEN). -/
opaque idleFlushPollsLessOne : Nat
/-- `SEND_ZLP` (OPEN). -/
opaque sendZlp : Bool
/-- `VID` (OPEN). -/
opaque vid : Half
/-- `PID` (OPEN). -/
opaque pid : Half
/-- `MFR_STR` in UTF-16 code units (OPEN). -/
opaque mfrStr : List Half
/-- `PROD_STR` in UTF-16 code units (OPEN). -/
opaque prodStr : List Half
/-- `SERIAL_TEMPLATE`, four characters (OPEN). -/
opaque serialTemplate : Vector Byte 4
/-- `PRESET[0..8]` (OPEN). -/
opaque preset : Vector Timing 9
/-- `SERIAL_AVAILABLE` (an input of the run). -/
opaque serialAvailable : Bool
/-- `SERIAL` (an input of the run). -/
opaque serial : Vector Byte 4

/-! ### Free values -/

/-- The `n`-th free byte of a run: the value of a byte that the rules leave as `ANY` (00_scope.md R13). State counts
the free bytes drawn so far. DESIGN CHOICE (assumption 6), safe. -/
opaque freeByte : Nat → Byte

end Config

end Sys2Proof
end

