-- ==== Sys2Proof/Machine/ChipMap.lean ====
section
/-! DEFINITION. Parameter `CHIP` at its default: the MCP2515-compatible commands, addresses and bit positions of
42_serial_bus.md R351 and 43_can_config.md R400, R401, with what the chip's family (MCP2515) adds where the spec gives
no word (assumptions 11, 13, 14), and the addresses that every table gives. -/

namespace Sys2Proof.Machine

/-! ### The registers of the reference chip, by address -/

/-- The bits of a register that a write changes (43_can_config.md R401): the others are read-only or unimplemented
(44_can_tx.md R456). PRESUMED for CANSTAT, TEC, REC and the '-' bits, from the chip's family (assumption 13), unsafe. -/
def writableBits (a : Nat) : Byte :=
  match a with
  | 0x01 | 0x05 | 0x09 | 0x11 | 0x15 | 0x19 => 0xEB
  | 0x0C => 0x3F
  | 0x0E | 0x1C | 0x1D => 0x00
  | 0x21 | 0x25 => 0xE3
  | 0x28 => 0xC7
  | 0x30 | 0x40 | 0x50 => 0x0B
  | 0x60 => 0x64
  | _ => 0xFF

/-- The registers that support bit modify (42_serial_bus.md R355). PRESUMED: the list is the chip family's
(assumption 14), unsafe. -/
def supportsBitModify (a : Nat) : Bool :=
  match a with
  | 0x0C | 0x0D | 0x0F | 0x28 | 0x29 | 0x2A | 0x2B | 0x2C | 0x2D => true
  | 0x30 | 0x40 | 0x50 | 0x60 | 0x70 => true
  | _ => false

/-- The addresses of the masks, the filters and CNF1 to CNF3, which the chip lets be written in configuration mode
only (60_exceptions.md R613 item 5). -/
def configOnly (a : Nat) : Bool :=
  decide (a ≤ 0x0B) || (decide (0x10 ≤ a) && decide (a ≤ 0x1B)) || (decide (0x20 ≤ a) && decide (a ≤ 0x2A))

/-- The value that RESET gives a register, where there is one. Stated: configuration mode (42_serial_bus.md R352,
R353), no slot requested, no buffer full (R352), CNF1 to CNF3 zero (43_can_config.md R423). PRESUMED: every other value
is the chip family's (assumption 11), unsafe; `none` is a register whose value the family does not fix either: the
filters, the masks, and the bytes of the buffers and slots. -/
def chipResetValue (a : Nat) : Option Byte :=
  match a with
  | 0x0C | 0x0D => some 0x00
  | 0x0E => some 0x80
  | 0x0F => some 0x87
  | 0x1C | 0x1D => some 0x00
  | 0x28 | 0x29 | 0x2A | 0x2B | 0x2C | 0x2D => some 0x00
  | 0x30 | 0x40 | 0x50 | 0x60 | 0x70 => some 0x00
  | _ => none

/-- The bits that the chip may change on its own for a reason that no rule gives (93_implementation_defined.md U3): the
status but for the mode, the error counters and flags, the pins' levels, the read-only bits of the control registers, and
addresses that no rule names. Not among them, by 60_exceptions.md R613 items 2, 3 and 5: the receive-full flags, TXREQ
and TXP, the bytes of slots and buffers, and the configuration; nor, by 70_reset_and_hazards.md R705, the mode, which
follows CANCTRL (`ChipEvent.enterMode`). DESIGN CHOICE (assumption 36). -/
def ownBits (a : Nat) : Byte :=
  match a with
  | 0x0D => 0x38
  | 0x0E => 0x1F
  | 0x1C | 0x1D => 0xFF
  | 0x2C => 0xE0
  | 0x2D => 0x3F
  | 0x30 | 0x40 | 0x50 => 0x70
  | 0x60 => 0x0B
  | 0x70 => 0x0F
  | 0x1E | 0x1F | 0x2E | 0x2F | 0x3E | 0x3F | 0x4E | 0x4F | 0x5E | 0x5F | 0x6E | 0x6F | 0x7E | 0x7F => 0xFF
  | _ => 0x00

/-- One register of the reference chip. -/
def referenceRegister (a : Nat) : RegisterInfo where
  writable := writableBits a
  bitModify := supportsBitModify a
  configOnly := configOnly a
  reset := chipResetValue a
  own := ownBits a

/-- The default of `CHIP` (42_serial_bus.md R351, 43_can_config.md R400, R401). `rxbsidh` is the chip family's,
PRESUMED (assumption 39). -/
def mcp2515 : ChipTable where
  cmdReset := 0xC0
  cmdRead := 0x03
  cmdWrite := 0x02
  cmdBitModify := 0x05
  cmdReadStatus := 0xA0
  cmdLoadTx := #v[0x40, 0x42, 0x44]
  cmdReadRx := #v[0x90, 0x94]
  rxf := #v[0x00, 0x04, 0x08, 0x10, 0x14, 0x18]
  rxm := #v[0x20, 0x24]
  bfpctrl := 0x0C
  canstat := 0x0E
  canctrl := 0x0F
  tecReg := 0x1C
  recReg := 0x1D
  cnf1 := 0x2A
  cnf2 := 0x29
  cnf3 := 0x28
  caninte := 0x2B
  canintf := 0x2C
  eflg := 0x2D
  txbctrl := #v[0x30, 0x40, 0x50]
  rxbctrl := #v[0x60, 0x70]
  rxbsidh := #v[0x61, 0x71]
  statusRxif := #v[0, 1]
  statusTxreq := #v[2, 4, 6]
  statusTxif := #v[3, 5, 7]
  txreq := 3
  txp := 0
  sid := 5
  exide := 3
  eid := 0
  bukt := 2
  bfm := #v[0, 1]
  bfe := #v[2, 3]
  bfs := #v[4, 5]
  rxif := #v[0, 1]
  txif := #v[2, 3, 4]
  errif := 5
  ewarn := 0
  rxep := 3
  txep := 4
  txbo := 5
  rxovr := #v[6, 7]
  opmod := 5
  regs := Vector.ofFn fun a => referenceRegister a.val

/-- A byte with one bit set. -/
def bitByte (i : Nat) : Byte := (1 : Byte) <<< i

/-- The chip's registers when the block is powered on. The block does not reset the chip (70_reset_and_hazards.md
R700), so no value is stated: the reset values of its table (at the default the family's), and 0x00 where that fixes
none. PRESUMED and DESIGN CHOICE (assumption 11), unsafe. -/
def chipPowerOn (m : ChipTable) : Vector Byte 128 := m.regs.map fun r => r.reset.getD 0x00

end Sys2Proof.Machine

namespace Sys2Proof

/-! ### What a table gives -/

/-- The address of TXBsCTRL (43_can_config.md R400). -/
def ChipTable.ctrl (m : ChipTable) (x : Fin 3) : Byte := m.txbctrl[x]

/-- The address of transmit slot `x`'s SIDH, the next after TXBsCTRL (43_can_config.md R400). -/
def ChipTable.txSidh (m : ChipTable) (x : Fin 3) : Nat := m.txbctrl[x].toNat + 1

/-- The address of receive buffer `b`'s SIDH, from which READ RX reads (42_serial_bus.md R351, R358). No rule gives it:
the table does, at the default the address after RXBbCTRL as in the chip's family, PRESUMED (assumption 39). -/
def ChipTable.rxSidh (m : ChipTable) (b : Fin 2) : Nat := m.rxbsidh[b].toNat

/-- The two bits of TXP in TXBsCTRL (43_can_config.md R401). -/
def ChipTable.txpMask (m : ChipTable) : Byte := (3 : Byte) <<< m.txp.val

/-- A priority in its place in TXBsCTRL (43_can_config.md R401). -/
def ChipTable.txpField (m : ChipTable) (p : Fin 4) : Byte := BitVec.ofNat 8 p.val <<< m.txp.val

/-- SID2 to SID0 of a filter's or a mask's SIDL (43_can_config.md R401). -/
def ChipTable.sidBits (m : ChipTable) (sidl : Byte) : BitVec 3 := sidl.extractLsb' m.sid.val 3

/-- EID17 and EID16 of a filter's or a mask's SIDL (43_can_config.md R401). -/
def ChipTable.eidBits (m : ChipTable) (sidl : Byte) : BitVec 2 := sidl.extractLsb' m.eid.val 2

/-- What is known of the register at an address of the map. -/
def ChipTable.info (m : ChipTable) (a : Nat) : RegisterInfo := m.regs.getD a default

end Sys2Proof
end

