-- ==== Sys2Proof/Syntax.lean ====
section
/-! DEFINITION. The operations of the block, one constructor per row of spec/opcode_table.json
(30_encoding.md): the client operations, the USB control requests and the serial-bus commands. -/

namespace Sys2Proof

/-- The three classes of operation (30_encoding.md R140). They are fetched from three places: the client command
port, the endpoint-0 OUT buffer, and the serial bus. -/
inductive OpClass where
  /-- A request on the client command port (30_encoding.md R141). -/
  | client
  /-- A SETUP packet of the USB host (30_encoding.md R150). -/
  | setup
  /-- A transaction on the serial bus (30_encoding.md R160). -/
  | serial
deriving DecidableEq, Repr

/-- The operations of spec/opcode_table.json. A client operation carries its operand bytes raw. A USB control request
carries every bit of its SETUP packet that does not select it: the direction bit, the recipient, and the three word
fields (30_encoding.md R150, R151). A serial command carries what R161 gives it. -/
inductive Instr where
  -- client operations (30_encoding.md R142)
  | usbPoll
  | usbReady
  | usbPut (b : Byte)
  | usbFlush
  | usbHasData
  | usbGet
  | canReset
  | canReadReg (a : Byte)
  | canWriteReg (a d : Byte)
  | canBitModify (a m d : Byte)
  | canReadStatus
  | canInit
  | canSetTiming (cnf1 cnf2 cnf3 : Byte)
  | canSetPreset (k : Byte)
  | canSetMask (m0 m1 m2 m3 : Byte)
  | canSetCode (c0 c1 c2 c3 : Byte)
  | canReadErrflags
  | canSend (flags : Byte) (id : BitVec 32) (dlc : Byte) (data : Vector Byte 8)
  | canReceive
  -- standard USB requests (30_encoding.md R152)
  | getStatus (dir : BitVec 1) (recip : BitVec 5) (wValue wIndex wLength : Half)
  | clearFeature (dir : BitVec 1) (recip : BitVec 5) (wValue wIndex wLength : Half)
  | setFeature (dir : BitVec 1) (recip : BitVec 5) (wValue wIndex wLength : Half)
  | setAddress (dir : BitVec 1) (recip : BitVec 5) (wValue wIndex wLength : Half)
  | getDescriptorDevice (dir : BitVec 1) (recip : BitVec 5) (index : Byte) (wIndex wLength : Half)
  | getDescriptorConfiguration (dir : BitVec 1) (recip : BitVec 5) (index : Byte) (wIndex wLength : Half)
  | getDescriptorString (dir : BitVec 1) (recip : BitVec 5) (index : Byte) (wIndex wLength : Half)
  | getDescriptorOther (dir : BitVec 1) (recip : BitVec 5) (dtype index : Byte) (wIndex wLength : Half)
  | getConfiguration (dir : BitVec 1) (recip : BitVec 5) (wValue wIndex wLength : Half)
  | setConfiguration (dir : BitVec 1) (recip : BitVec 5) (wValue wIndex wLength : Half)
  | getInterface (dir : BitVec 1) (recip : BitVec 5) (wValue wIndex wLength : Half)
  | setInterface (dir : BitVec 1) (recip : BitVec 5) (wValue wIndex wLength : Half)
  | synchFrame (dir : BitVec 1) (recip : BitVec 5) (wValue wIndex wLength : Half)
  -- class requests of the virtual serial port (30_encoding.md R153)
  | sendEncapsulatedCommand (dir : BitVec 1) (recip : BitVec 5) (wValue wIndex wLength : Half)
  | getEncapsulatedResponse (dir : BitVec 1) (recip : BitVec 5) (wValue wIndex wLength : Half)
  | setLineCoding (dir : BitVec 1) (recip : BitVec 5) (wValue wIndex wLength : Half)
  | getLineCoding (dir : BitVec 1) (recip : BitVec 5) (wValue wIndex wLength : Half)
  | setControlLineState (dir : BitVec 1) (recip : BitVec 5) (wValue wIndex wLength : Half)
  -- serial-bus commands (30_encoding.md R161)
  | spiReset
  | spiRead (a : Byte)
  | spiWrite (a : Byte) (ds : List Byte)
  | spiBitModify (a m d : Byte)
  | spiReadStatus
  | spiLoadTx (slot : Fin 3) (ds : List Byte)
  | spiReadRx (buffer : Fin 2)
deriving DecidableEq, Repr

/-- The class of an operation: the "format" column of spec/opcode_table.json. -/
def Instr.opClass : Instr → OpClass
  | .usbPoll | .usbReady | .usbPut _ | .usbFlush | .usbHasData | .usbGet => .client
  | .canReset | .canReadReg _ | .canWriteReg _ _ | .canBitModify _ _ _ | .canReadStatus => .client
  | .canInit | .canSetTiming _ _ _ | .canSetPreset _ | .canSetMask _ _ _ _ | .canSetCode _ _ _ _ => .client
  | .canReadErrflags | .canSend _ _ _ _ | .canReceive => .client
  | .getStatus _ _ _ _ _ | .clearFeature _ _ _ _ _ | .setFeature _ _ _ _ _ | .setAddress _ _ _ _ _ => .setup
  | .getDescriptorDevice _ _ _ _ _ | .getDescriptorConfiguration _ _ _ _ _ => .setup
  | .getDescriptorString _ _ _ _ _ | .getDescriptorOther _ _ _ _ _ _ => .setup
  | .getConfiguration _ _ _ _ _ | .setConfiguration _ _ _ _ _ => .setup
  | .getInterface _ _ _ _ _ | .setInterface _ _ _ _ _ | .synchFrame _ _ _ _ _ => .setup
  | .sendEncapsulatedCommand _ _ _ _ _ | .getEncapsulatedResponse _ _ _ _ _ => .setup
  | .setLineCoding _ _ _ _ _ | .getLineCoding _ _ _ _ _ | .setControlLineState _ _ _ _ _ => .setup
  | .spiReset | .spiRead _ | .spiWrite _ _ | .spiBitModify _ _ _ | .spiReadStatus => .serial
  | .spiLoadTx _ _ | .spiReadRx _ => .serial

end Sys2Proof
end

