-- ==== Sys2Proof/WellFormed.lean ====
section
/-! DEFINITION. Which terms of Instr stand for an operation that can be encoded (30_encoding.md). An operand value
that the block answers NO or with a stall is well formed: it can be presented, and its outcome is the meaning's. -/

namespace Sys2Proof

/-- GET_DESCRIPTOR_OTHER stands for the descriptor types that the three other rows do not take
(40_usb_control.md R213). -/
def dtypeIsOther (dtype : Byte) : Bool := dtype != 1 && dtype != 2 && dtype != 3

/-- A WRITE carries one or more data bytes (30_encoding.md R161). -/
def writeLengthOk (ds : List Byte) : Bool := 1 ≤ ds.length

/-- A LOAD TX carries 5 to 13 bytes (30_encoding.md R161). -/
def loadTxLengthOk (ds : List Byte) : Bool := 5 ≤ ds.length && ds.length ≤ 13

/-- The operations that have an encoding. Every other bound is in the operands' types. -/
def Instr.wellFormed : Instr → Bool
  | .getDescriptorOther _ _ dtype _ _ _ => dtypeIsOther dtype
  | .spiWrite _ ds => writeLengthOk ds
  | .spiLoadTx _ ds => loadTxLengthOk ds
  | .usbPoll | .usbReady | .usbPut _ | .usbFlush | .usbHasData | .usbGet => true
  | .canReset | .canReadReg _ | .canWriteReg _ _ | .canBitModify _ _ _ | .canReadStatus => true
  | .canInit | .canSetTiming _ _ _ | .canSetPreset _ | .canSetMask _ _ _ _ | .canSetCode _ _ _ _ => true
  | .canReadErrflags | .canSend _ _ _ _ | .canReceive => true
  | .getStatus _ _ _ _ _ | .clearFeature _ _ _ _ _ | .setFeature _ _ _ _ _ | .setAddress _ _ _ _ _ => true
  | .getDescriptorDevice _ _ _ _ _ | .getDescriptorConfiguration _ _ _ _ _ => true
  | .getDescriptorString _ _ _ _ _ => true
  | .getConfiguration _ _ _ _ _ | .setConfiguration _ _ _ _ _ => true
  | .getInterface _ _ _ _ _ | .setInterface _ _ _ _ _ | .synchFrame _ _ _ _ _ => true
  | .sendEncapsulatedCommand _ _ _ _ _ | .getEncapsulatedResponse _ _ _ _ _ => true
  | .setLineCoding _ _ _ _ _ | .getLineCoding _ _ _ _ _ | .setControlLineState _ _ _ _ _ => true
  | .spiReset | .spiRead _ | .spiBitModify _ _ _ | .spiReadStatus | .spiReadRx _ => true

end Sys2Proof
end

