-- ==== Sys2Proof/Decode.lean ====
section
/-! DEFINITION. The decoders of the three operation classes (30_encoding.md), total on any bytes and rejecting by
name, and after them the encoder written from the same encoding tables. -/

namespace Sys2Proof

/-- Why a byte list stands for no operation. -/
inductive DecodeError where
  /-- No byte at all: not a request (30_encoding.md R141). -/
  | empty
  /-- The op code is not in the table of 30_encoding.md R142: illegal (R145). -/
  | illegalOp (op : Byte)
  /-- The number of operand bytes is not the one the first byte fixes (30_encoding.md R141, R161). -/
  | badLength (first : Byte)
  /-- A SETUP packet is 8 bytes (30_encoding.md R150). -/
  | notEightBytes
  /-- No request rule takes this type and request code (30_encoding.md R156). -/
  | unknownRequest (bmRequestType bRequest : Byte)
  /-- The block issues no transaction with this command byte (30_encoding.md R162). -/
  | unknownCommand (cmd : Byte)
  /-- A dummy byte that is not 0x00 (42_serial_bus.md R359). -/
  | nonzeroDummy (cmd : Byte)
deriving DecidableEq, Repr

/-! ### Fields and byte order -/

/-- A little-endian USB word: the byte at the lower offset is the less significant (20_memory.md R103 (a)). -/
def le16 (lo hi : Byte) : Half := hi ++ lo

/-- The less significant byte of a word. -/
def lowByte (h : Half) : Byte := h.extractLsb' 0 8

/-- The more significant byte of a word. -/
def highByte (h : Half) : Byte := h.extractLsb' 8 8

/-- A big-endian word of 32 bits on the command port (30_encoding.md R141). -/
def be32 (b3 b2 b1 b0 : Byte) : BitVec 32 := b3 ++ b2 ++ b1 ++ b0

/-- Byte `i` of a word of 32 bits, counted from the least significant. -/
def byteOf32 (w : BitVec 32) (i : Nat) : Byte := w.extractLsb' (8 * i) 8

/-- `bmRequestType[7]`, the direction (30_encoding.md R151). -/
def bmDir (bm : Byte) : BitVec 1 := bm.extractLsb' 7 1

/-- `bmRequestType[6:5]`, the type (30_encoding.md R151). -/
def bmType (bm : Byte) : BitVec 2 := bm.extractLsb' 5 2

/-- `bmRequestType[4:0]`, the recipient (30_encoding.md R151). -/
def bmRecip (bm : Byte) : BitVec 5 := bm.extractLsb' 0 5

/-- The byte `bmRequestType` of its three fields (30_encoding.md R151). -/
def bmByte (dir : BitVec 1) (type : BitVec 2) (recip : BitVec 5) : Byte := dir ++ type ++ recip

/-! ### The decoders -/

/-- The operation with no operand bytes, where there are none. -/
def args0 (first : Byte) (i : Instr) : List Byte → Except DecodeError Instr
  | [] => .ok i
  | _ => .error (.badLength first)

/-- The operation of one operand byte. -/
def args1 (first : Byte) (f : Byte → Instr) : List Byte → Except DecodeError Instr
  | [a] => .ok (f a)
  | _ => .error (.badLength first)

/-- The operation of two operand bytes. -/
def args2 (first : Byte) (f : Byte → Byte → Instr) : List Byte → Except DecodeError Instr
  | [a, b] => .ok (f a b)
  | _ => .error (.badLength first)

/-- The operation of three operand bytes. -/
def args3 (first : Byte) (f : Byte → Byte → Byte → Instr) : List Byte → Except DecodeError Instr
  | [a, b, c] => .ok (f a b c)
  | _ => .error (.badLength first)

/-- The operation of four operand bytes. -/
def args4 (first : Byte) (f : Byte → Byte → Byte → Byte → Instr) : List Byte → Except DecodeError Instr
  | [a, b, c, d] => .ok (f a b c d)
  | _ => .error (.badLength first)

/-- The frame operand of CAN_SEND, 14 bytes (30_encoding.md R143). -/
def frameArgs (first : Byte) : List Byte → Except DecodeError Instr
  | [f, i3, i2, i1, i0, dlc, d0, d1, d2, d3, d4, d5, d6, d7] =>
    .ok (.canSend f (be32 i3 i2 i1 i0) dlc #v[d0, d1, d2, d3, d4, d5, d6, d7])
  | _ => .error (.badLength first)

/-- Decoding a client request `[op] ++ operands` (30_encoding.md R141 to R145). An op code outside the table is
illegal whatever follows it; otherwise the op code fixes the number of operand bytes. -/
def decodeClient : List Byte → Except DecodeError Instr
  | [] => .error .empty
  | op :: rest =>
    match op.toNat with
    | 0x01 => args0 op .usbPoll rest
    | 0x02 => args0 op .usbReady rest
    | 0x03 => args1 op .usbPut rest
    | 0x04 => args0 op .usbFlush rest
    | 0x05 => args0 op .usbHasData rest
    | 0x06 => args0 op .usbGet rest
    | 0x10 => args0 op .canReset rest
    | 0x11 => args1 op .canReadReg rest
    | 0x12 => args2 op .canWriteReg rest
    | 0x13 => args3 op .canBitModify rest
    | 0x14 => args0 op .canReadStatus rest
    | 0x20 => args0 op .canInit rest
    | 0x21 => args3 op .canSetTiming rest
    | 0x22 => args1 op .canSetPreset rest
    | 0x23 => args4 op .canSetMask rest
    | 0x24 => args4 op .canSetCode rest
    | 0x25 => args0 op .canReadErrflags rest
    | 0x30 => frameArgs op rest
    | 0x31 => args0 op .canReceive rest
    | _ => .error (.illegalOp op)

/-- GET_DESCRIPTOR: the descriptor type `wValue[15:8]` selects the row, `wValue[7:0]` is the index
(30_encoding.md R154). -/
def descriptorRequest (dir : BitVec 1) (recip : BitVec 5) (dtype index : Byte) (wIndex wLength : Half) : Instr :=
  if dtype = 1 then .getDescriptorDevice dir recip index wIndex wLength
  else if dtype = 2 then .getDescriptorConfiguration dir recip index wIndex wLength
  else if dtype = 3 then .getDescriptorString dir recip index wIndex wLength
  else .getDescriptorOther dir recip dtype index wIndex wLength

/-- The table of standard requests (30_encoding.md R152). -/
def standardRequest (bm rq : Byte) (wValue wIndex wLength : Half) : Except DecodeError Instr :=
  match rq.toNat with
  | 0x00 => .ok (.getStatus (bmDir bm) (bmRecip bm) wValue wIndex wLength)
  | 0x01 => .ok (.clearFeature (bmDir bm) (bmRecip bm) wValue wIndex wLength)
  | 0x03 => .ok (.setFeature (bmDir bm) (bmRecip bm) wValue wIndex wLength)
  | 0x05 => .ok (.setAddress (bmDir bm) (bmRecip bm) wValue wIndex wLength)
  | 0x06 => .ok (descriptorRequest (bmDir bm) (bmRecip bm) (highByte wValue) (lowByte wValue) wIndex wLength)
  | 0x08 => .ok (.getConfiguration (bmDir bm) (bmRecip bm) wValue wIndex wLength)
  | 0x09 => .ok (.setConfiguration (bmDir bm) (bmRecip bm) wValue wIndex wLength)
  | 0x0A => .ok (.getInterface (bmDir bm) (bmRecip bm) wValue wIndex wLength)
  | 0x0B => .ok (.setInterface (bmDir bm) (bmRecip bm) wValue wIndex wLength)
  | 0x0C => .ok (.synchFrame (bmDir bm) (bmRecip bm) wValue wIndex wLength)
  | _ => .error (.unknownRequest bm rq)

/-- The table of class requests (30_encoding.md R153). -/
def classRequest (bm rq : Byte) (wValue wIndex wLength : Half) : Except DecodeError Instr :=
  match rq.toNat with
  | 0x00 => .ok (.sendEncapsulatedCommand (bmDir bm) (bmRecip bm) wValue wIndex wLength)
  | 0x01 => .ok (.getEncapsulatedResponse (bmDir bm) (bmRecip bm) wValue wIndex wLength)
  | 0x20 => .ok (.setLineCoding (bmDir bm) (bmRecip bm) wValue wIndex wLength)
  | 0x21 => .ok (.getLineCoding (bmDir bm) (bmRecip bm) wValue wIndex wLength)
  | 0x22 => .ok (.setControlLineState (bmDir bm) (bmRecip bm) wValue wIndex wLength)
  | _ => .error (.unknownRequest bm rq)

/-- Decoding the 8 bytes of a SETUP packet (30_encoding.md R150 to R156): first the type, then the request code of that
type's table. The direction and the recipient select nothing (R151); vendor and reserved types are not handled. -/
def decodeSetup : List Byte → Except DecodeError Instr
  | [bm, rq, v0, v1, x0, x1, l0, l1] =>
    if bmType bm = 0 then standardRequest bm rq (le16 v0 v1) (le16 x0 x1) (le16 l0 l1)
    else if bmType bm = 1 then classRequest bm rq (le16 v0 v1) (le16 x0 x1) (le16 l0 l1)
    else .error (.unknownRequest bm rq)
  | _ => .error .notEightBytes

/-- Bytes that only clock data in are 0x00 (42_serial_bus.md R359). -/
def allZero : List Byte → Bool
  | [] => true
  | b :: bs => b == 0 && allZero bs

/-- READ: an address and one dummy (42_serial_bus.md R353). -/
def decodeRead (cmd : Byte) : List Byte → Except DecodeError Instr
  | [a, z] => if z = 0 then .ok (.spiRead a) else .error (.nonzeroDummy cmd)
  | _ => .error (.badLength cmd)

/-- WRITE: an address and one or more data bytes (42_serial_bus.md R354). -/
def decodeWrite (cmd : Byte) : List Byte → Except DecodeError Instr
  | a :: d :: ds => .ok (.spiWrite a (d :: ds))
  | _ => .error (.badLength cmd)

/-- READ STATUS: one dummy (42_serial_bus.md R356). -/
def decodeReadStatus (cmd : Byte) : List Byte → Except DecodeError Instr
  | [z] => if z = 0 then .ok .spiReadStatus else .error (.nonzeroDummy cmd)
  | _ => .error (.badLength cmd)

/-- READ RX with the given dummies: 5 to 13 of them, all 0x00 (42_serial_bus.md R358). Their number is no operand:
the block decides it during the transaction. -/
def decodeReadRx (cmd : Byte) (buffer : Fin 2) (dummies : List Byte) : Except DecodeError Instr :=
  if dummies.length < 5 ∨ 13 < dummies.length then .error (.badLength cmd)
  else if allZero dummies then .ok (.spiReadRx buffer)
  else .error (.nonzeroDummy cmd)

/-- LOAD TX with 5 to 13 bytes (42_serial_bus.md R357). -/
def decodeLoadTx (cmd : Byte) (slot : Fin 3) (ds : List Byte) : Except DecodeError Instr :=
  if loadTxLengthOk ds then .ok (.spiLoadTx slot ds) else .error (.badLength cmd)

/-- Decoding the bytes of a serial transaction (30_encoding.md R160 to R163) with the command bytes of `m`, parameter
`CHIP`. A table in which two commands have the same byte can tell them apart by nothing: the first of R161's order is
taken, a DESIGN CHOICE (assumption 5); the default has none. -/
def decodeSerial (m : ChipTable) : List Byte → Except DecodeError Instr
  | [] => .error .empty
  | cmd :: rest =>
    if cmd = m.cmdReset then args0 cmd .spiReset rest
    else if cmd = m.cmdRead then decodeRead cmd rest
    else if cmd = m.cmdWrite then decodeWrite cmd rest
    else if cmd = m.cmdBitModify then args3 cmd .spiBitModify rest
    else if cmd = m.cmdReadStatus then decodeReadStatus cmd rest
    else if cmd = m.cmdLoadTx[0] then decodeLoadTx cmd 0 rest
    else if cmd = m.cmdLoadTx[1] then decodeLoadTx cmd 1 rest
    else if cmd = m.cmdLoadTx[2] then decodeLoadTx cmd 2 rest
    else if cmd = m.cmdReadRx[0] then decodeReadRx cmd 0 rest
    else if cmd = m.cmdReadRx[1] then decodeReadRx cmd 1 rest
    else .error (.unknownCommand cmd)

/-- The decoder of a class; the serial class has the command bytes of `m`, parameter `CHIP`. -/
def decode (m : ChipTable) : OpClass → List Byte → Except DecodeError Instr
  | .client, bytes => decodeClient bytes
  | .setup, bytes => decodeSetup bytes
  | .serial, bytes => decodeSerial m bytes

/-! ### The encoder -/

/-- The 8 bytes of a SETUP packet (30_encoding.md R150). -/
def encodeSetup (dir : BitVec 1) (type : BitVec 2) (recip : BitVec 5) (bRequest : Byte)
    (wValue wIndex wLength : Half) : List Byte :=
  [bmByte dir type recip, bRequest, lowByte wValue, highByte wValue, lowByte wIndex, highByte wIndex,
    lowByte wLength, highByte wLength]

/-- The bytes of an operation, in transmission order (30_encoding.md R142, R150 to R154, R161); a serial command has the
command byte of `m`, parameter `CHIP`. READ RX is written with the 5 dummies of its header; the block clocks the
payload's dummies after it has seen the header (R163). -/
def encode (m : ChipTable) : Instr → List Byte
  | .usbPoll => [0x01]
  | .usbReady => [0x02]
  | .usbPut b => [0x03, b]
  | .usbFlush => [0x04]
  | .usbHasData => [0x05]
  | .usbGet => [0x06]
  | .canReset => [0x10]
  | .canReadReg a => [0x11, a]
  | .canWriteReg a d => [0x12, a, d]
  | .canBitModify a m d => [0x13, a, m, d]
  | .canReadStatus => [0x14]
  | .canInit => [0x20]
  | .canSetTiming c1 c2 c3 => [0x21, c1, c2, c3]
  | .canSetPreset k => [0x22, k]
  | .canSetMask m0 m1 m2 m3 => [0x23, m0, m1, m2, m3]
  | .canSetCode c0 c1 c2 c3 => [0x24, c0, c1, c2, c3]
  | .canReadErrflags => [0x25]
  | .canSend f id dlc data =>
    [0x30, f, byteOf32 id 3, byteOf32 id 2, byteOf32 id 1, byteOf32 id 0, dlc, data[0], data[1], data[2], data[3],
      data[4], data[5], data[6], data[7]]
  | .canReceive => [0x31]
  | .getStatus dir recip v x l => encodeSetup dir 0 recip 0x00 v x l
  | .clearFeature dir recip v x l => encodeSetup dir 0 recip 0x01 v x l
  | .setFeature dir recip v x l => encodeSetup dir 0 recip 0x03 v x l
  | .setAddress dir recip v x l => encodeSetup dir 0 recip 0x05 v x l
  | .getDescriptorDevice dir recip i x l => encodeSetup dir 0 recip 0x06 (le16 i 1) x l
  | .getDescriptorConfiguration dir recip i x l => encodeSetup dir 0 recip 0x06 (le16 i 2) x l
  | .getDescriptorString dir recip i x l => encodeSetup dir 0 recip 0x06 (le16 i 3) x l
  | .getDescriptorOther dir recip t i x l => encodeSetup dir 0 recip 0x06 (le16 i t) x l
  | .getConfiguration dir recip v x l => encodeSetup dir 0 recip 0x08 v x l
  | .setConfiguration dir recip v x l => encodeSetup dir 0 recip 0x09 v x l
  | .getInterface dir recip v x l => encodeSetup dir 0 recip 0x0A v x l
  | .setInterface dir recip v x l => encodeSetup dir 0 recip 0x0B v x l
  | .synchFrame dir recip v x l => encodeSetup dir 0 recip 0x0C v x l
  | .sendEncapsulatedCommand dir recip v x l => encodeSetup dir 1 recip 0x00 v x l
  | .getEncapsulatedResponse dir recip v x l => encodeSetup dir 1 recip 0x01 v x l
  | .setLineCoding dir recip v x l => encodeSetup dir 1 recip 0x20 v x l
  | .getLineCoding dir recip v x l => encodeSetup dir 1 recip 0x21 v x l
  | .setControlLineState dir recip v x l => encodeSetup dir 1 recip 0x22 v x l
  | .spiReset => [m.cmdReset]
  | .spiRead a => [m.cmdRead, a, 0x00]
  | .spiWrite a ds => m.cmdWrite :: a :: ds
  | .spiBitModify a k d => [m.cmdBitModify, a, k, d]
  | .spiReadStatus => [m.cmdReadStatus, 0x00]
  | .spiLoadTx x ds => m.cmdLoadTx[x] :: ds
  | .spiReadRx b => [m.cmdReadRx[b], 0x00, 0x00, 0x00, 0x00, 0x00]

/-! ### The table's words -/

/-- How many bytes follow the first byte `op` of a client request (30_encoding.md R142). -/
def clientOperandCount (op : Byte) : Nat :=
  match op.toNat with
  | 0x03 => 1
  | 0x11 => 1
  | 0x12 => 2
  | 0x13 => 3
  | 0x21 => 3
  | 0x22 => 1
  | 0x23 => 4
  | 0x24 => 4
  | 0x30 => 14
  | _ => 0

/-- How many bytes follow the command byte, of `CHIP`'s default, in the shortest transaction of that command
(30_encoding.md R161). -/
def serialOperandCount (cmd : Byte) : Nat :=
  match cmd.toNat with
  | 0xC0 => 0
  | 0xA0 => 1
  | 0x03 => 2
  | 0x02 => 2
  | 0x05 => 3
  | _ => 5

/-- The bytes of the client request whose first byte is the table's word, its operands zero. -/
def clientTableBytes (w : Nat) : List Byte :=
  BitVec.ofNat 8 w :: List.replicate (clientOperandCount (BitVec.ofNat 8 w)) 0

/-- The bytes of the serial transaction whose command byte is the table's word, its other bytes zero. -/
def serialTableBytes (w : Nat) : List Byte :=
  BitVec.ofNat 8 w :: List.replicate (serialOperandCount (BitVec.ofNat 8 w)) 0

/-- The SETUP packet of the table's 32-bit number, which holds the packet's bytes 0 to 3 from its most significant byte
down (the note of the "setup" rows); bytes 4 to 7 are zero. -/
def setupTableBytes (w : Nat) : List Byte :=
  [byteOf32 (BitVec.ofNat 32 w) 3, byteOf32 (BitVec.ofNat 32 w) 2, byteOf32 (BitVec.ofNat 32 w) 1,
    byteOf32 (BitVec.ofNat 32 w) 0, 0, 0, 0, 0]

/-- The class and the bytes that a word of the opcode table stands for. A 32-bit word is a SETUP packet. A one-byte word
is a client request where the client's table has its op code, else a serial transaction: the two tables share the
codes 0x02, 0x03 and 0x05, and the word alone does not say which is meant (assumption 4). -/
def tableWordBytes (nbits w : Nat) : OpClass × List Byte :=
  if nbits = 32 then (.setup, setupTableBytes w)
  else
    match decodeClient (clientTableBytes w) with
    | .ok _ => (.client, clientTableBytes w)
    | .error _ => (.serial, serialTableBytes w)

/-- The operation that the decoder reads from a word of the opcode table, whose command bytes are those of `CHIP`'s
default, the rest of the operation zero. -/
def decodeTableWord (nbits w : Nat) : Option Instr :=
  if nbits = 8 ∨ nbits = 32 then
    match decode Machine.mcp2515 (tableWordBytes nbits w).1 (tableWordBytes nbits w).2 with
    | .ok i => some i
    | .error _ => none
  else none

end Sys2Proof
end

