-- ==== Sys2Proof/Machine/Flags.lean ====
section
/-! DEFINITION. The flag words the block decodes, at the bit positions of parameter `CHIP`: the chip's READ STATUS byte
(42_serial_bus.md R351) and its error flags (43_can_config.md R411, R412), with the transmit choice that the status
decides (44_can_tx.md R451 to R453). -/

namespace Sys2Proof.Machine

/-! ### The error status word (43_can_config.md R411, R412) -/

/-- The 4-bit error word of the EFLG register: warning, overrun, passive error, bus error. R412 writes the bits of EFLG
as numbers, which they are at the default CHIP; for another CHIP they are those of its table: DESIGN CHOICE (assumption
5). -/
def errorWord (m : ChipTable) (e : Byte) : Byte :=
  (if e.getLsbD m.ewarn then 0x1 else 0x0) |||
    (if e.getLsbD m.rxovr[0] || e.getLsbD m.rxovr[1] then 0x2 else 0x0) |||
    (if e.getLsbD m.rxep || e.getLsbD m.txep then 0x4 else 0x0) ||| (if e.getLsbD m.txbo then 0x8 else 0x0)

/-! ### The READ STATUS byte (42_serial_bus.md R351) -/

/-- A flag in its place in a byte. -/
def flagAt (i : Fin 8) (b : Bool) : Byte := if b then bitByte i.val else 0x00

/-- The READ STATUS byte of its eight flags: RXbIF of the buffers, TXREQ and TXIF of the slots. -/
def statusByte (m : ChipTable) (rxif : Fin 2 → Bool) (txreq txif : Fin 3 → Bool) : Byte :=
  flagAt m.statusRxif[0] (rxif 0) ||| flagAt m.statusRxif[1] (rxif 1) |||
    flagAt m.statusTxreq[0] (txreq 0) ||| flagAt m.statusTxif[0] (txif 0) |||
    flagAt m.statusTxreq[1] (txreq 1) ||| flagAt m.statusTxif[1] (txif 1) |||
    flagAt m.statusTxreq[2] (txreq 2) ||| flagAt m.statusTxif[2] (txif 2)

/-- Slot `x` is busy when its TXREQ bit of the status is 1 (44_can_tx.md R451); at the default that is bit
`2 + 2x`. -/
def slotBusy (m : ChipTable) (st : Byte) (x : Fin 3) : Bool := st.getLsbD m.statusTxreq[x]

/-- The busy slots of a status, by rising index (44_can_tx.md R451). -/
def busySlots (m : ChipTable) (st : Byte) : List (Fin 3) := [0, 1, 2].filter (slotBusy m st)

/-! ### The choice of slot and priority (44_can_tx.md R452, R453) -/

/-- `PREF1`, the slot taken when exactly one slot is busy (44_can_tx.md R453). -/
def pref1 (a : Fin 3) : Fin 3 :=
  match a with
  | 0 => 2
  | 1 => 0
  | 2 => 1

/-- `rank(x) = 4·sp[x] + x` (44_can_tx.md R452). -/
def slotRank (sp : Vector (Fin 4) 3) (x : Fin 3) : Nat := 4 * sp[x].val + x.val

/-- The slot that is neither of two given ones. -/
def otherSlot (x y : Fin 3) : Fin 3 := 0 - x - y

/-- What the transmitter chooses: the slot, its priority, and the priority rewrites of busy slots, in order. -/
structure TxChoice where
  slot : Fin 3
  prio : Fin 4
  promos : List (Fin 3 × Fin 4)
deriving DecidableEq, Repr

/-- The choice with one busy slot `a` (44_can_tx.md R452, n = 1). -/
def chooseOne (a : Fin 3) (sp : Vector (Fin 4) 3) : TxChoice :=
  if pref1 a < a then ⟨pref1 a, sp[a], []⟩
  else if 0 < sp[a].val then ⟨pref1 a, sp[a] - 1, []⟩
  else ⟨pref1 a, 2, [(a, 3)]⟩

/-- The choice with two busy slots, `a` the older and `b` the newer (44_can_tx.md R452, n = 2). -/
def chooseTwo (a b : Fin 3) : TxChoice :=
  if b < a then ⟨otherSlot a b, 2, [(a, 3), (b, 3)]⟩ else ⟨otherSlot a b, 1, [(a, 3), (b, 2)]⟩

/-- `Choose(busy, sp)`, none when all three slots are busy (44_can_tx.md R450, R452). -/
def chooseSlot (busy : List (Fin 3)) (sp : Vector (Fin 4) 3) : Option TxChoice :=
  match busy with
  | [] => some ⟨2, 3, []⟩
  | [a] => some (chooseOne a sp)
  | [a, b] => some (if slotRank sp b < slotRank sp a then chooseTwo a b else chooseTwo b a)
  | _ => none

end Sys2Proof.Machine
end

