-- ==== Sys2Proof/Machine/Operands.lean ====
section
/-! DEFINITION. The operand and result forms of the operations: the CAN frame operand and its register image, the frame
header and result of the receiver, and the legacy filter and mask bytes. -/

namespace Sys2Proof.Machine

/-! ### The frame operand of CAN_SEND (30_encoding.md R143) -/

/-- `ext = flags[0]`. -/
def frameExt (flags : Byte) : Bool := flags.getLsbD 0

/-- `rtr = flags[1]`. -/
def frameRtr (flags : Byte) : Bool := flags.getLsbD 1

/-- The identifier, the bits above its width ignored. -/
def frameId (ext : Bool) (id : BitVec 32) : BitVec 29 :=
  if ext then id.extractLsb' 0 29 else (id.extractLsb' 0 11).zeroExtend 29

/-! ### The register image of a frame (44_can_tx.md R455, R457) -/

/-- The identifier image SIDH, SIDL, EID8, EID0 (44_can_tx.md R457). -/
def idImage (ext : Bool) (id : BitVec 29) : List Byte :=
  if ext then
    [id.extractLsb' 21 8,
      ((id.extractLsb' 18 3).zeroExtend 8 <<< 5) ||| 0x08 ||| (id.extractLsb' 16 2).zeroExtend 8,
      id.extractLsb' 8 8,
      id.extractLsb' 0 8]
  else [id.extractLsb' 3 8, (id.extractLsb' 0 3).zeroExtend 8 <<< 5, 0x00, 0x00]

/-- The DLC byte: RTR at bit 6, the raw dlc in the low bits (44_can_tx.md R455). -/
def dlcByte (rtr : Bool) (dlc : Byte) : Byte := (if rtr then 0x40 else 0x00) ||| dlc

/-- How many payload bytes a frame has: none for a remote frame, else the dlc up to 8 (44_can_tx.md R455,
45_can_rx.md R505). -/
def payloadLength (rtr : Bool) (dlc : Nat) : Nat := if rtr then 0 else min dlc 8

/-- The payload bytes loaded for a frame (44_can_tx.md R455). -/
def payloadBytes (rtr : Bool) (dlc : Byte) (data : Vector Byte 8) : List Byte :=
  data.toList.take (payloadLength rtr dlc.toNat)

/-- The byte list of the load transaction (44_can_tx.md R455). -/
def loadBytes (ext rtr : Bool) (id : BitVec 29) (dlc : Byte) (data : Vector Byte 8) : List Byte :=
  idImage ext id ++ [dlcByte rtr dlc] ++ payloadBytes rtr dlc data

/-! ### The received header (45_can_rx.md R504) -/

/-- What the receiver reads from the header. -/
structure RxHeader where
  ext : Bool
  rtr : Bool
  id : BitVec 32
  dlc : BitVec 4
deriving DecidableEq, Repr

/-- `Decode(h)` of the header registers SIDH, SIDL, EID8, EID0 and DLC (45_can_rx.md R504). -/
def decodeHeader (h0 h1 h2 h3 h4 : Byte) : RxHeader :=
  if h1.getLsbD 3 then
    { ext := true
      rtr := h4.getLsbD 6
      id := (h0 ++ h1.extractLsb' 5 3 ++ h1.extractLsb' 0 2 ++ h2 ++ h3).zeroExtend 32
      dlc := h4.extractLsb' 0 4 }
  else
    { ext := false
      rtr := h1.getLsbD 4
      id := (h0 ++ h1.extractLsb' 5 3).zeroExtend 32
      dlc := h4.extractLsb' 0 4 }

/-- The flags byte of a received frame: bit 0 `ext`, bit 1 `rtr` (30_encoding.md R144). -/
def resultFlags (ext rtr : Bool) : Byte := (if ext then 0x01 else 0x00) ||| (if rtr then 0x02 else 0x00)

/-- Eight data bytes: those read, then 0x00 (45_can_rx.md R506). -/
def padPayload (d : List Byte) : List Byte := (d ++ List.replicate 8 0x00).take 8

/-- `Result(ext, rtr, id, dlc, d, ts)`, the 16 result bytes of CAN_RECEIVE (45_can_rx.md R506). -/
def resultBytes (h : RxHeader) (d : List Byte) (ts : BitVec 16) : List Byte :=
  [resultFlags h.ext h.rtr, h.id.extractLsb' 24 8, h.id.extractLsb' 16 8, h.id.extractLsb' 8 8, h.id.extractLsb' 0 8,
    h.dlc.zeroExtend 8] ++ padPayload d ++ [ts.extractLsb' 8 8, ts.extractLsb' 0 8]

/-! ### The legacy filter and mask bytes (43_can_config.md R406 to R408) -/

/-- A native mask byte: the polarity of the legacy byte inverted (43_can_config.md R407). -/
def nativeMask (m : Byte) : Byte := 0xFF ^^^ m

/-- `Fs`, the code in a standard-frame slot: EXIDE = 0 (43_can_config.md R408). R408 writes `c1 & 0xF7`, which it is at
the default CHIP; for another CHIP the bit is that of its table: DESIGN CHOICE (assumption 5). -/
def standardCode (m : ChipTable) (c0 c1 c2 c3 : Byte) : List Byte := [c0, c1 &&& ~~~bitByte m.exide.val, c2, c3]

/-- `Fe`, the code in an extended-frame slot: EXIDE = 1 (43_can_config.md R408). R408 writes `c1 | 0x08`, which it is
at the default CHIP; for another CHIP the bit is that of its table: DESIGN CHOICE (assumption 5). -/
def extendedCode (m : ChipTable) (c0 c1 c2 c3 : Byte) : List Byte := [c0, c1 ||| bitByte m.exide.val, c2, c3]

end Sys2Proof.Machine
end

