-- ==== Sys2Proof/Machine/Memory.lean ====
section
/-! DEFINITION. Memory: the six buffers of the block (20_memory.md R100) as one list of address and byte pairs in one
canonical form. -/

namespace Sys2Proof.Machine

/-- The bytes that are not 0, by rising address. -/
abbrev Memory := List Host.Cell

/-- What an address that is not listed reads as. The contents of every buffer at power-on are `ANY`
(10_state.md R42, R43, R47); the model takes 0x00. DESIGN CHOICE (assumption 7), unsafe. -/
def unlistedByte : Byte := 0x00

/-- The byte at an address. -/
def Memory.read : Memory → Nat → Byte
  | [], _ => unlistedByte
  | (a, b) :: m, x => if a = x then b else Memory.read m x

/-- Writing one byte keeps the form: a byte that an unlisted address reads as is not listed. -/
def Memory.write : Memory → Nat → Byte → Memory
  | [], x, v => if v = unlistedByte then [] else [(x, v)]
  | (a, b) :: m, x, v =>
    if x < a then (if v = unlistedByte then (a, b) :: m else (x, v) :: (a, b) :: m)
    else if x = a then (if v = unlistedByte then m else (x, v) :: m)
    else (a, b) :: Memory.write m x v

/-- The bytes at consecutive addresses, lowest first. -/
def Memory.readList (m : Memory) (x : Nat) : Nat → List Byte
  | 0 => []
  | n + 1 => m.read x :: Memory.readList m (x + 1) n

/-- Writing bytes to consecutive addresses, in order. -/
def Memory.writeList (m : Memory) (x : Nat) : List Byte → Memory
  | [] => m
  | v :: vs => Memory.writeList (m.write x v) (x + 1) vs

/-- Every address is at least `lo`, addresses rise strictly, and no listed byte is the unlisted one. -/
def Memory.wfFrom : Nat → Memory → Bool
  | _, [] => true
  | lo, (a, b) :: m => decide (lo ≤ a) && b != unlistedByte && Memory.wfFrom (a + 1) m

/-- The canonical form of memory. -/
def Memory.wf (m : Memory) : Bool := Memory.wfFrom 0 m

end Sys2Proof.Machine
end

