-- ==== Sys2Proof/Machine/Params.lean ====
section
/-! DEFINITION. The spec's default for every parameter that has one (00_scope.md R7), the reference descriptor set
(40_usb_control.md R209) and the default self-test (43_can_config.md R421). -/

namespace Sys2Proof.Machine

/-- The two bytes of a descriptor's 16-bit field, little-endian (20_memory.md R103 (a)). -/
def fieldBytes (h : Half) : List Byte := [h.extractLsb' 0 8, h.extractLsb' 8 8]

/-- The reference device descriptor, 18 bytes (40_usb_control.md R209); iSerialNumber is `SERIAL_STR_INDEX`
(assumption 40). -/
def referenceDevice (cfg : Params) : List Byte :=
  [0x12, 0x01, 0x00, 0x02, 0x02, 0x00, 0x00, BitVec.ofNat 8 cfg.ep0Size.bytes] ++ fieldBytes cfg.vid ++
    fieldBytes cfg.pid ++ [0x00, 0x01, 0x01, 0x02, cfg.serialStrIndex, 0x01]

/-- The reference configuration descriptor set, 67 bytes (40_usb_control.md R209); bConfigurationValue is `CONFIG_VALUE`
and the endpoint addresses are `EP_NOTIFY`, `EP_OUT` and `EP_IN`, as the rule names them. -/
def referenceConfig (cfg : Params) : List Byte :=
  [0x09, 0x02, 0x43, 0x00, 0x02, cfg.configValue, 0x00, 0x80, 0x32] ++
  [0x09, 0x04, 0x00, 0x00, 0x01, 0x02, 0x02, 0x01, 0x00] ++
  [0x05, 0x24, 0x00, 0x10, 0x01] ++
  [0x05, 0x24, 0x01, 0x00, 0x01] ++
  [0x04, 0x24, 0x02, 0x02] ++
  [0x05, 0x24, 0x06, 0x00, 0x01] ++
  [0x07, 0x05, cfg.epNotify, 0x03, 0x08, 0x00, 0xFF] ++
  [0x09, 0x04, 0x01, 0x00, 0x02, 0x0A, 0x00, 0x00, 0x00] ++
  [0x07, 0x05, cfg.epOut, 0x02, BitVec.ofNat 8 cfg.bulkSize.val, 0x00, 0x00] ++
  [0x07, 0x05, cfg.epIn, 0x02, BitVec.ofNat 8 cfg.bulkSize.val, 0x00, 0x00]

/-- String 0: the language 0x0409 (40_usb_control.md R209). -/
def languageString : List Byte := [0x04, 0x03, 0x09, 0x04]

/-- A string descriptor `(2 + 2n) 03` and n UTF-16LE characters (40_usb_control.md R209). Its length byte holds at most
126 characters; a longer string is cut there (assumption 31, DESIGN CHOICE, unsafe). -/
def textString (chars : List Half) : List Byte :=
  BitVec.ofNat 8 (2 + 2 * (chars.take 126).length) :: 0x03 :: (chars.take 126).flatMap fieldBytes

/-- The serial-number template `0A 03 t0 00 t1 00 t2 00 t3 00` (40_usb_control.md R209). -/
def serialString (t : Vector Byte 4) : List Byte := [0x0A, 0x03, t[0], 0x00, t[1], 0x00, t[2], 0x00, t[3], 0x00]

/-- A string put at an index of a list of strings, with no string at the indices between. -/
def placeString (i : Nat) (str : List Byte) (strings : List (Option (List Byte))) : List (Option (List Byte)) :=
  (strings ++ List.replicate (i + 1 - strings.length) none).set i (some str)

/-- The reference descriptor set of 40_usb_control.md R209. The string at `SERIAL_STR_INDEX` is the template
(90_conflicts.md C4), which at the default is string 3. R209 writes 3 and does not say what another index changes: the
template and iSerialNumber follow the parameter, and at an index of 0 to 2 the template takes the place of that string,
DESIGN CHOICE (assumption 40). -/
def referenceDescriptors (cfg : Params) : DescriptorSet where
  device := referenceDevice cfg
  config := referenceConfig cfg
  strings := placeString cfg.serialStrIndex.toNat (serialString cfg.serialTemplate)
    [some languageString, some (textString cfg.mfrStr), some (textString cfg.prodStr)]

/-- The descriptor set in use: `DESC`, or the reference set of the other parameters (00_scope.md R7,
40_usb_control.md R209). -/
def descriptors (cfg : Params) : DescriptorSet := cfg.desc.getD (referenceDescriptors cfg)

/-- The string of an index, if the set has one (40_usb_control.md R212). -/
def stringOf (d : DescriptorSet) (i : Nat) : Option (List Byte) := (d.strings[i]?).getD none

/-- The default self-test (43_can_config.md R421). -/
def defaultSelfTest : Vector SelfTestStage 4 :=
  #v[⟨[.write 0x0C [0x2C]], true, false, false⟩,
    ⟨[.write 0x0C [0x1C]], false, true, false⟩,
    ⟨[.write 0x0C [0x3C], .write 0x2B [0x20], .bitModify 0x2C 0x20 0x20], false, false, true⟩,
    ⟨[.bitModify 0x2C 0x20 0x00, .write 0x2B [0x00]], false, false, false⟩]

/-- Every parameter at the spec's default, and the OPEN ones at a constant of Config that has no body. -/
def defaultParams : Params where
  ep0Size := .s8
  bulkSize := ⟨64, by decide⟩
  idleFlushPolls := ⟨Config.idleFlushPollsLessOne + 1, Nat.le_add_left 1 _⟩
  sendZlp := Config.sendZlp
  vid := Config.vid
  pid := Config.pid
  mfrStr := Config.mfrStr
  prodStr := Config.prodStr
  serialTemplate := Config.serialTemplate
  desc := none
  epNotify := 0x81
  epOut := 0x02
  epIn := 0x82
  configValue := 1
  serialSlots := #v[2, 4, 6, 8]
  serialStrIndex := 3
  lineCodingReset := #v[0x00, 0xC2, 0x01, 0x00, 0x00, 0x00, 0x08]
  chip := mcp2515
  preset := Config.preset
  selfTest := defaultSelfTest
  inteAfterInit := 0x00
  rxLastReset := 1
  spiCpol := false
  spiCpha := false
  serialAvailable := Config.serialAvailable
  serial := Config.serial

end Sys2Proof.Machine
end

