-- ==== Sys2Proof/Machine/State.lean ====
section
/-! DEFINITION. The state: the block (10_state.md), the agents it meets (60_exceptions.md R610) as far as the spec gives
them state, and the ports between them (10_state.md R70). -/

namespace Sys2Proof.Machine

/-! ### The block -/

/-- The endpoint-halt features `dev.halt[e]` (10_state.md R35), one for each non-control endpoint. -/
structure Halt where
  notify : Bool
  out : Bool
  in_ : Bool
deriving DecidableEq, Repr

/-- The USB device configuration record (10_state.md R32 to R36). -/
structure Dev where
  /-- `dev.addr` (R33). -/
  addr : BitVec 7
  /-- `dev.config` (R34). -/
  config : Byte
  /-- `dev.halt[e]` (R35). -/
  halt : Halt
  /-- `dev.lineCoding` (R36). -/
  lineCoding : Vector Byte 7
deriving DecidableEq, Repr

/-- An IN data stage in progress (10_state.md R39). -/
structure Xfer where
  /-- The full reply. -/
  data : List Byte
  /-- The offset of the next byte to send. -/
  off : Nat
  /-- The number of bytes still to send. -/
  rem : Nat
  /-- The reply is the serial-number string and the serial number is available. -/
  subst : Bool
  /-- A zero-length packet must still follow. -/
  zlpDue : Bool
deriving DecidableEq, Repr

/-- Control-transfer state (10_state.md R37 to R40). -/
structure Ctl where
  /-- `ctl.pendingAddr` (R37). -/
  pendingAddr : Option (BitVec 7)
  /-- `ctl.lcPending` (R38). -/
  lcPending : Bool
  /-- `ctl.xfer` (R39). -/
  xfer : Option Xfer
  /-- `ctl.stall` (R40). -/
  stall : Bool
deriving DecidableEq, Repr

/-- Who owns a buffer (10_state.md R41): the block (`SW`) or the SIE. -/
inductive Owner where
  | sw
  | sie
deriving DecidableEq, Repr

/-- A buffer descriptor (10_state.md R41). -/
structure Bd where
  own : Owner
  /-- `bd.count`, 0 to 64. -/
  count : Nat
deriving DecidableEq, Repr

/-- The six buffers, each with its descriptor and its byte space (10_state.md R42, R43, R47; 20_memory.md R100). -/
inductive Buf where
  | ep0out
  | ep0in
  | bin (k : Fin 2)
  | bout (k : Fin 2)
deriving DecidableEq, Repr

/-- The buffer descriptors (10_state.md R42, R43, R47). -/
structure Bds where
  ep0out : Bd
  /-- `bd.ep0out.setup`: the completed transaction was a SETUP. -/
  ep0setup : Bool
  ep0in : Bd
  bin0 : Bd
  bin1 : Bd
  bout0 : Bd
  bout1 : Bd
deriving DecidableEq, Repr

/-- The bulk-IN manager (10_state.md R44 to R46). -/
structure BulkIn where
  active : Fin 2
  fill : Nat
  idle : Nat
deriving DecidableEq, Repr

/-- The bulk-OUT manager (10_state.md R48, R49). -/
structure BulkOut where
  active : Fin 2
  pos : Nat
deriving DecidableEq, Repr

/-- The CAN driver (10_state.md R55 to R58). -/
structure Can where
  txprio : Fin 4
  slotPrio : Vector (Fin 4) 3
  rxLast : Fin 2
  selfTestOk : Bool
deriving DecidableEq, Repr

/-- The lines that the block drives on the serial bus (10_state.md R70 (3), 42_serial_bus.md R361). -/
structure SerialLines where
  /-- `nCS` is released. -/
  released : Bool
  /-- The level of `SCK`. -/
  sck : Bool
deriving DecidableEq, Repr

/-! ### The agents -/

/-- What the SIE posts to the block (10_state.md R73). -/
inductive SieEvent where
  | busReset
  | doneEp0out
  | doneEp0in
  | doneBin (k : Fin 2)
  | doneBout (k : Fin 2)
deriving DecidableEq, Repr

/-- The data toggles the SIE keeps (60_exceptions.md R612 item 6): true is DATA1. -/
structure Toggles where
  ep0in : Bool
  ep0out : Bool
  notify : Bool
  out : Bool
  in_ : Bool
deriving DecidableEq, Repr

/-- The SIE (60_exceptions.md R612): its event queue, its toggles, and the bulk buffers it uses next. -/
structure Sie where
  /-- The events not yet taken, oldest first. -/
  queue : List SieEvent
  toggles : Toggles
  nextIn : Fin 2
  nextOut : Fin 2
deriving DecidableEq, Repr

/-- A frame on the CAN bus (44_can_tx.md R450): for a standard frame the identifier is its low 11 bits. -/
structure CanFrame where
  ext : Bool
  rtr : Bool
  id : BitVec 29
  dlc : BitVec 4
  data : Vector Byte 8
deriving DecidableEq, Repr

/-- A frame that the chip takes from a transmit slot to the CAN bus (44_can_tx.md R455, R458). -/
structure TxFrame where
  slot : Fin 3
  /-- Its bytes as they stood in the slot: SIDH, SIDL, EID8, EID0, DLC, payload. -/
  bytes : List Byte
deriving DecidableEq, Repr

/-- The CAN controller chip (20_memory.md R100, 60_exceptions.md R613). -/
structure Chip where
  /-- The registers at 0x00 to 0x7F. -/
  regs : Vector Byte 128
  /-- The frame being sent (44_can_tx.md R458, R460). -/
  onBus : Option TxFrame
  /-- The frames the chip has sent on the CAN bus, oldest first. -/
  sent : List TxFrame
deriving DecidableEq, Repr

/-- What a pin input sees (10_state.md R71, 43_can_config.md R420): the chip's output, or, on a faulty wire, a level. -/
inductive Wire where
  | sound
  | stuck (asserted : Bool)
deriving DecidableEq, Repr

/-- The three pin inputs (10_state.md R71). -/
structure Pins where
  rx0 : Wire
  rx1 : Wire
  err : Wire
deriving DecidableEq, Repr

/-! ### What the outside agents do -/

/-- What the chip does on its own (20_memory.md R112). -/
inductive ChipEvent where
  /-- A frame of another node arrives from the CAN bus (43_can_config.md R409). -/
  | receive (f : CanFrame)
  /-- The bus is free and the chip starts the pending slot of highest rank (44_can_tx.md R458). -/
  | start
  /-- The frame on the bus has been sent (44_can_tx.md R458). -/
  | complete
  /-- The frame on the bus loses arbitration or hits an error: it stays pending (44_can_tx.md R458). -/
  | lose
  /-- The chip enters the mode that CANCTRL requests (43_can_config.md R424). -/
  | enterMode
  /-- The chip records a bus error condition (60_exceptions.md R609). -/
  | busError (flags tx rx : Byte)
  /-- The chip changes the bits of a register that it may change for any other reason
  (93_implementation_defined.md U3, assumption 36). -/
  | poke (a : Fin 128) (v : Byte)
deriving DecidableEq, Repr

/-- The pins by name (10_state.md R71). -/
inductive Pin where
  | rx0
  | rx1
  | err
deriving DecidableEq, Repr

/-- What may happen outside the block while it performs a request, and between requests: the chip's state and the pins
change (60_exceptions.md R610). -/
inductive Outside where
  | chip (e : ChipEvent)
  | wire (p : Pin) (w : Wire)
deriving DecidableEq, Repr

/-- What the USB host does on the bus (60_exceptions.md R612). An address is a device address, an endpoint a number. -/
inductive Token where
  | busReset
  | setup (addr : BitVec 7) (packet : Vector Byte 8)
  | inToken (addr : BitVec 7) (ep : BitVec 4)
  | outToken (addr : BitVec 7) (ep : BitVec 4) (data : List Byte)
deriving DecidableEq, Repr

/-- The SIE's answer to a token (60_exceptions.md R612). -/
inductive Answer where
  /-- No answer: another device's address, an endpoint that does not exist, or a packet that is too long. -/
  | silent
  | ack
  | nak
  | stall
  | data (toggle : Bool) (bytes : List Byte)
deriving DecidableEq, Repr

/-- What happens next, as the agents outside the block decide it (60_exceptions.md R610). -/
inductive Input where
  /-- The client presents a request (30_encoding.md R141). -/
  | request (bytes : List Byte)
  /-- The USB host sends a token, and the SIE answers it. -/
  | token (t : Token)
  /-- The chip or a pin changes. -/
  | outside (o : Outside)
  /-- The clock advances by one millisecond: never inside a request (60_exceptions.md R610, 70_reset_and_hazards.md
  R741). -/
  | tick
deriving DecidableEq, Repr

/-! ### What the block puts out -/

/-- The status of a response (30_encoding.md R146). -/
inductive Status where
  | ok
  | no
  | illegal
deriving DecidableEq, Repr

/-- The byte of a status (30_encoding.md R146). -/
def Status.byte : Status → Byte
  | .ok => 0x00
  | .no => 0x01
  | .illegal => 0x02

/-- A response on the client command port (30_encoding.md R146). -/
structure Response where
  status : Status
  result : List Byte
deriving DecidableEq, Repr

/-- A serial transaction (42_serial_bus.md R350): the bytes sent, and those received in the same clock periods. -/
structure SerialTxn where
  mosi : List Byte
  miso : List Byte
deriving DecidableEq, Repr

/-- A non-control endpoint, by its parameter (00_scope.md R7). -/
inductive Endpoint where
  | notify
  | out
  | in_
deriving DecidableEq, Repr

/-- A pulse on the SIE interface (10_state.md R73). -/
inductive Pulse where
  | toggleReset (e : Endpoint)
  | ppReset
deriving DecidableEq, Repr

/-! ### The state -/

/-- The machine: the block, the agents outside it, and its ports. -/
structure State where
  /-- The parameters and the inputs of the run (00_scope.md R7, R8). No rule changes them. -/
  cfg : Params
  dev : Dev
  ctl : Ctl
  bds : Bds
  /-- The contents of the buffers (20_memory.md R100). -/
  mem : Memory
  bin : BulkIn
  bout : BulkOut
  can : Can
  serial : SerialLines
  sie : Sie
  chip : Chip
  pins : Pins
  /-- The clock input (10_state.md R72). -/
  clock : BitVec 16
  /-- What happens next, first thing first. -/
  inputs : List Input
  /-- The MODEL's own: the bytes of a serial transaction that State.withFetchWord has placed to be performed by itself.
  There are none at reset, and nothing but State.withFetchWord places any: the block starts no serial-bus command on its
  own (30_encoding.md R140, assumption 3). -/
  bench : Option (List Byte)
  /-- What happens outside before each of the next transactions and pin samples of the block (20_memory.md R112). -/
  during : List (List Outside)
  /-- The response to the last request (30_encoding.md R146). -/
  response : Option Response
  /-- The serial transactions of the last request, in order. -/
  txns : List SerialTxn
  /-- The pulses of the last request, in order. -/
  pulses : List Pulse
  /-- The SIE's answer to the last token. -/
  answer : Option Answer
  /-- The MODEL's own: how many free bytes have been drawn (assumption 6). -/
  draws : Nat
deriving DecidableEq, Repr

/-- Why the machine stops. -/
inductive Fault where
  /-- Raised by the named operations over buffers when a step of the block would read or write a buffer, or its count,
  that the SIE owns (20_memory.md R107, 93_implementation_defined.md U5: a model must fault at that step). Safe. -/
  | ownership (b : Buf)
  /-- Raised by the named operations over buffers at an offset outside the buffer's byte space (20_memory.md R100).
  Safe. -/
  | noSuchByte (b : Buf) (offset : Nat)
deriving DecidableEq, Repr

/-- Why the model gives no next state. -/
inductive Refusal where
  /-- Raised by the dispatch for an operation that has no meaning yet. Safe. -/
  | notModelled (mnemonic : String)
  /-- Raised by the step for a client request whose number of operand bytes is not the one its op code fixes: it cannot
  be presented (30_encoding.md R141). Safe. -/
  | badFraming
  /-- Raised by the step for bytes on the bench that are no transaction of the block (30_encoding.md R162). Safe. -/
  | noSuchTransaction
deriving DecidableEq, Repr

/-- What a step or a meaning answers. -/
abbrev Res := Host.Outcome State Fault Refusal

/-- The machine at power-on with given parameters: every element of the block at the value of
70_reset_and_hazards.md R701, the SIE from its own reset, the chip and the pins as assumptions 11 and 21 say, no input
pending and nothing put out. -/
def State.resetWith (cfg : Params) : State where
  cfg := cfg
  dev := { addr := 0, config := 0, halt := ⟨false, false, false⟩, lineCoding := cfg.lineCodingReset }
  ctl := { pendingAddr := none, lcPending := false, xfer := none, stall := false }
  bds := {
    ep0out := ⟨.sie, cfg.ep0Size.bytes⟩, ep0setup := false, ep0in := ⟨.sw, 0⟩
    bin0 := ⟨.sw, 0⟩, bin1 := ⟨.sw, 0⟩, bout0 := ⟨.sw, 0⟩, bout1 := ⟨.sw, 0⟩ }
  mem := []
  bin := { active := 0, fill := 0, idle := 0 }
  bout := { active := 0, pos := 0 }
  can := { txprio := 3, slotPrio := #v[0, 0, 0], rxLast := cfg.rxLastReset, selfTestOk := false }
  serial := { released := true, sck := cfg.spiCpol }
  sie := { queue := [], toggles := ⟨false, false, false, false, false⟩, nextIn := 0, nextOut := 0 }
  chip := { regs := chipPowerOn cfg.chip, onBus := none, sent := [] }
  pins := { rx0 := .sound, rx1 := .sound, err := .sound }
  clock := 0
  inputs := []
  bench := none
  during := []
  response := none
  txns := []
  pulses := []
  answer := none
  draws := 0

/-- The machine right after power-on reset (70_reset_and_hazards.md R700, R701). -/
def State.reset : State := State.resetWith defaultParams

end Sys2Proof.Machine
end

