-- ==== Sys2Proof/Machine/Chip.lean ====
section
/-! DEFINITION. The CAN controller chip: an agent that meets 60_exceptions.md R613 with the commands, addresses and bit
positions of parameter `CHIP`, here `m`, and the behaviour that the spec gives the reference chip (42_serial_bus.md R351
to R358, 43_can_config.md R400, R401, R409, 44_can_tx.md R458). -/

namespace Sys2Proof.Machine

/-! ### Registers -/

/-- The register at an address of the map, by number. -/
def Chip.cell (c : Chip) (a : Nat) : Byte := c.regs.getD a 0x00

/-- The register at an address of the map. -/
def Chip.reg (c : Chip) (a : Byte) : Byte := c.cell a.toNat

/-- Changing a register from inside the chip. -/
def Chip.put (c : Chip) (a : Byte) (v : Byte) : Chip := { c with regs := c.regs.setIfInBounds a.toNat v }

/-- The bits of `old` outside a mask, and those of `new` inside it. -/
def mergeBits (mask old new : Byte) : Byte := (old &&& ~~~mask) ||| (new &&& mask)

/-- The mode in CANSTAT (42_serial_bus.md R353, 43_can_config.md R424). -/
def Chip.mode (c : Chip) (m : ChipTable) : BitVec 3 := (c.reg m.canstat).extractLsb' m.opmod.val 3

/-- Configuration mode (43_can_config.md R424: 0x80 in bits 7:5). -/
def Chip.inConfigMode (c : Chip) (m : ChipTable) : Bool := c.mode m == 4

/-- The modes that send: normal (0x00) and loop-back (0x40) (43_can_config.md R424). PRESUMED, and DESIGN CHOICE that a
bit rate is not looked at (assumption 18), unsafe. -/
def Chip.modeSends (c : Chip) (m : ChipTable) : Bool := c.mode m == 0 || c.mode m == 2

/-- The modes that receive: normal, loop-back and listen-only (0x60) (43_can_config.md R424). PRESUMED, and DESIGN CHOICE
that a bit rate is not looked at (assumption 18), unsafe. -/
def Chip.modeReceives (c : Chip) (m : ChipTable) : Bool := c.mode m == 0 || c.mode m == 2 || c.mode m == 3

/-- TXREQ of a slot (43_can_config.md R401). -/
def Chip.txreq (c : Chip) (m : ChipTable) (x : Fin 3) : Bool := (c.reg (m.ctrl x)).getLsbD m.txreq.val

/-- TXP of a slot (43_can_config.md R401). -/
def Chip.txp (c : Chip) (m : ChipTable) (x : Fin 3) : Nat := ((c.reg (m.ctrl x)).extractLsb' m.txp.val 2).toNat

/-- RXbIF (43_can_config.md R401). -/
def Chip.rxFull (c : Chip) (m : ChipTable) (b : Fin 2) : Bool := (c.reg m.canintf).getLsbD m.rxif[b]

/-- TXxIF (43_can_config.md R401). -/
def Chip.txif (c : Chip) (m : ChipTable) (x : Fin 3) : Bool := (c.reg m.canintf).getLsbD m.txif[x]

/-! ### What a serial transaction does (42_serial_bus.md R351 to R358) -/

/-- What a read of an address gives: the register, or, outside the map, a free value (93_implementation_defined.md
U8). -/
def Chip.readAt (c : Chip) (a : Nat) (free : Byte) : Byte := if a < 128 then c.cell a else free

/-- The frame on the bus stays there while its slot is pending; one that the client aborts through a raw write
(44_can_tx.md R458) leaves the bus unsent. DESIGN CHOICE (assumption 32). -/
def Chip.dropAborted (c : Chip) (m : ChipTable) : Chip :=
  { c with onBus := c.onBus.filter fun f => c.txreq m f.slot }

/-- The chip ignores a write of this register now: a configuration register outside configuration mode
(60_exceptions.md R613 item 5). -/
def Chip.ignores (c : Chip) (m : ChipTable) (a : Nat) : Bool := (m.info a).configOnly && !c.inConfigMode m

/-- A write of one register over the serial bus: ignored for a configuration register outside configuration mode
(60_exceptions.md R613 item 5), and otherwise it changes the writable bits (43_can_config.md R401). The read-only bits
of R401 (ABTF, MLOA, TXERR, RXRTR, BUKT1, FILHIT0) follow no rule: they hold their reset value until `ChipEvent.poke`
changes them, DESIGN CHOICE (assumption 13). An address outside the map changes nothing (assumption 15, DESIGN CHOICE,
unsafe). After a raw write of the client to a pending slot's TXBsCTRL, BFPCTRL, CANINTF.RX0IF or RX1IF, or RXB0CTRL.BUKT
(70_reset_and_hazards.md R728), 93_implementation_defined.md U7 gives any value for what follows: the model's chip goes on by
its rules from the registers as written, DESIGN CHOICE, unsafe (assumption 41). -/
def Chip.writeAt (c : Chip) (m : ChipTable) (a : Nat) (v : Byte) : Chip :=
  if c.ignores m a then c
  else
    Chip.dropAborted { c with regs := c.regs.setIfInBounds a (mergeBits (m.info a).writable (c.cell a) v) } m

/-- Bytes written to consecutive registers, in increasing order (20_memory.md R103 (b)). -/
def Chip.writeList (c : Chip) (m : ChipTable) (a : Nat) : List Byte → Chip
  | [] => c
  | v :: vs => Chip.writeList (c.writeAt m a v) m (a + 1) vs

/-- Bytes of consecutive registers, in increasing order. -/
def Chip.readList (c : Chip) (a : Nat) : Nat → List Byte
  | 0 => []
  | n + 1 => c.cell a :: Chip.readList c (a + 1) n

/-- BIT MODIFY: `reg[a] <- (reg[a] & ~k) | (d & k)`; a register without bit-modify support is written whole
(42_serial_bus.md R355). On such a register with k = 0 the two corner cases of R355 disagree; the model writes d whole,
DESIGN CHOICE (assumption 14). -/
def Chip.bitModify (c : Chip) (m : ChipTable) (a : Nat) (k d : Byte) : Chip :=
  if (m.info a).bitModify then c.writeAt m a (mergeBits k (c.cell a) d) else c.writeAt m a d

/-- RESET: every register at its reset value (42_serial_bus.md R352, 60_exceptions.md R613 item 6), and no frame is being
sent. A register whose value nobody fixes takes a free one: the free bytes from number `n` on (assumption 12). -/
def Chip.reset (c : Chip) (m : ChipTable) (n : Nat) : Chip :=
  { c with
    regs := Vector.ofFn fun a => (m.regs[a]).reset.getD (Config.freeByte (n + a.val))
    onBus := none }

/-- The READ STATUS byte (42_serial_bus.md R351). -/
def Chip.status (c : Chip) (m : ChipTable) : Byte := statusByte m (c.rxFull m) (c.txreq m) (c.txif m)

/-- Setting bits of CANINTF. -/
def Chip.raise (c : Chip) (m : ChipTable) (bits : Byte) : Chip := c.put m.canintf (c.reg m.canintf ||| bits)

/-- Releasing `nCS` after READ RX clears RXbIF (42_serial_bus.md R358). -/
def Chip.release (c : Chip) (m : ChipTable) (b : Fin 2) : Chip :=
  c.put m.canintf (c.reg m.canintf &&& ~~~bitByte m.rxif[b])

/-! ### The pins (43_can_config.md R401, 60_exceptions.md R613 item 4) -/

/-- The level of pin RXbBF, true when asserted (active low): the buffer-full output, or the digital output `BbBFS`. A pin
that the chip does not drive is not asserted, as after a RESET (42_serial_bus.md R352: "the next receive sees no
pins"; assumption 21, DEDUCED). -/
def Chip.rxPin (c : Chip) (m : ChipTable) (b : Fin 2) : Bool :=
  (c.reg m.bfpctrl).getLsbD m.bfe[b] &&
    (if (c.reg m.bfpctrl).getLsbD m.bfm[b] then c.rxFull m b else !(c.reg m.bfpctrl).getLsbD m.bfs[b])

/-- INT is asserted while `CANINTF & CANINTE ≠ 0`. -/
def Chip.errPin (c : Chip) (m : ChipTable) : Bool := (c.reg m.canintf &&& c.reg m.caninte) != 0

/-- What a pin input shows. -/
def Wire.level (w : Wire) (asserted : Bool) : Bool :=
  match w with
  | .sound => asserted
  | .stuck b => b

/-! ### What the chip does on its own -/

/-- An error condition is recorded in EFLG; with CANINTE.ERRIE set, CANINTF.ERRIF is raised (60_exceptions.md R609). -/
def Chip.recordError (c : Chip) (m : ChipTable) (flags : Byte) : Chip :=
  if (c.reg m.caninte).getLsbD m.errif.val then (c.put m.eflg flags).raise m (bitByte m.errif.val)
  else c.put m.eflg flags

/-- A buffer overrun is recorded in EFLG (45_can_rx.md R511). -/
def Chip.overrun (c : Chip) (m : ChipTable) (b : Fin 2) : Chip :=
  c.recordError m (c.reg m.eflg ||| bitByte m.rxovr[b])

/-- A bus error condition: new flags, of those that the chip changes on its own, and new error counters
(60_exceptions.md R609). -/
def Chip.busError (c : Chip) (m : ChipTable) (flags tx rx : Byte) : Chip :=
  ((c.recordError m (mergeBits (m.info m.eflg.toNat).own (c.reg m.eflg) flags)).put m.tecReg tx).put m.recReg rx

/-- Any other change: of the bits that the chip may change on its own (93_implementation_defined.md U3,
assumption 36). -/
def Chip.poke (c : Chip) (m : ChipTable) (a : Nat) (v : Byte) : Chip :=
  { c with regs := c.regs.setIfInBounds a (mergeBits (m.info a).own (c.cell a) v) }

/-- The payload of a frame on the bus. -/
def framePayload (f : CanFrame) : List Byte := payloadBytes f.rtr (f.dlc.zeroExtend 8) f.data

/-- A payload byte of a frame; a byte that the frame does not carry is free. -/
def frameByte (f : CanFrame) (i : Nat) (free : Byte) : Byte := (framePayload f).getD i free

/-- The bits of a filter that are compared agree (a mask bit of 1 means "compare", 43_can_config.md R401). -/
def maskedEqual {w : Nat} (filter mask value : BitVec w) : Bool := ((filter ^^^ value) &&& mask) == 0

/-- The filter at one address with the mask at another accepts a frame (43_can_config.md R409): the fields of the SIDL
registers are where the table has them, and SIDL[7:5] and [1:0] of the image where 44_can_tx.md R457 does. `n` numbers
the free bytes that stand for data bytes the frame does not carry (assumption 19). -/
def Chip.accepts (c : Chip) (m : ChipTable) (filter mask : Byte) (f : CanFrame) (n : Nat) : Bool :=
  let img := idImage f.ext f.id
  let sidl := c.reg (filter + 1)
  sidl.getLsbD m.exide.val == f.ext &&
  maskedEqual (c.reg filter) (c.reg mask) (img.getD 0 0) &&
  maskedEqual (m.sidBits sidl) (m.sidBits (c.reg (mask + 1))) ((img.getD 1 0).extractLsb' 5 3) &&
  (if f.ext then
    maskedEqual (m.eidBits sidl) (m.eidBits (c.reg (mask + 1))) ((img.getD 1 0).extractLsb' 0 2) &&
    maskedEqual (c.reg (filter + 2)) (c.reg (mask + 2)) (img.getD 2 0) &&
    maskedEqual (c.reg (filter + 3)) (c.reg (mask + 3)) (img.getD 3 0)
  else
    maskedEqual (c.reg (filter + 2)) (c.reg (mask + 2)) (frameByte f 0 (Config.freeByte n)) &&
    maskedEqual (c.reg (filter + 3)) (c.reg (mask + 3)) (frameByte f 1 (Config.freeByte (n + 1))))

/-- Buffer 0 uses RXF0, RXF1 and RXM0 (43_can_config.md R409). -/
def Chip.accepts0 (c : Chip) (m : ChipTable) (f : CanFrame) (n : Nat) : Bool :=
  c.accepts m m.rxf[0] m.rxm[0] f n || c.accepts m m.rxf[1] m.rxm[0] f n

/-- Buffer 1 uses RXF2 to RXF5 and RXM1 (43_can_config.md R409). -/
def Chip.accepts1 (c : Chip) (m : ChipTable) (f : CanFrame) (n : Nat) : Bool :=
  c.accepts m m.rxf[2] m.rxm[1] f n || c.accepts m m.rxf[3] m.rxm[1] f n || c.accepts m m.rxf[4] m.rxm[1] f n ||
    c.accepts m m.rxf[5] m.rxm[1] f n

/-- The header registers of a received frame (45_can_rx.md R504). The bits that R504 does not look at are those of free
bytes: SIDL 2:0, EID8, EID0 and DLC 7:4 of a standard frame, SIDL 4 and 2 and DLC 7, 5 and 4 of an extended one.
DESIGN CHOICE (assumption 19), safe. -/
def rxImage (f : CanFrame) (n : Nat) : List Byte :=
  if f.ext then
    [f.id.extractLsb' 21 8,
      mergeBits 0x14 (((f.id.extractLsb' 18 3).zeroExtend 8 <<< 5) ||| 0x08 ||| (f.id.extractLsb' 16 2).zeroExtend 8)
        (Config.freeByte n),
      f.id.extractLsb' 8 8,
      f.id.extractLsb' 0 8,
      mergeBits 0xB0 (dlcByte f.rtr (f.dlc.zeroExtend 8)) (Config.freeByte (n + 1))]
  else
    [f.id.extractLsb' 3 8,
      mergeBits 0x07 (((f.id.extractLsb' 0 3).zeroExtend 8 <<< 5) ||| (if f.rtr then 0x10 else 0x00))
        (Config.freeByte n),
      Config.freeByte (n + 1), Config.freeByte (n + 2),
      mergeBits 0xF0 (f.dlc.zeroExtend 8) (Config.freeByte (n + 3))]

/-- Bytes put into consecutive registers from inside the chip. -/
def Chip.putList (c : Chip) (a : Nat) : List Byte → Chip
  | [] => c
  | v :: vs => Chip.putList { c with regs := c.regs.setIfInBounds a v } (a + 1) vs

/-- A frame moves into a receive buffer and fills it. The data registers beyond its payload keep what they held
(93_implementation_defined.md U16). -/
def Chip.fill (c : Chip) (m : ChipTable) (b : Fin 2) (f : CanFrame) (n : Nat) : Chip :=
  (c.putList (m.rxSidh b) (rxImage f n ++ framePayload f)).raise m (bitByte m.rxif[b])

/-- RXB0CTRL.BUKT: buffer 0 rolls over into buffer 1 (43_can_config.md R401, R420). -/
def Chip.bukt (c : Chip) (m : ChipTable) : Bool := (c.reg m.rxbctrl[0]).getLsbD m.bukt.val

/-- A frame arrives from the bus (43_can_config.md R409, 45_can_rx.md R511). -/
def Chip.receive (c : Chip) (m : ChipTable) (f : CanFrame) (n : Nat) : Chip :=
  if !c.modeReceives m then c
  else if c.accepts0 m f n then
    if !c.rxFull m 0 then c.fill m 0 f (n + 2)
    else if c.bukt m then (if !c.rxFull m 1 then c.fill m 1 f (n + 2) else c.overrun m 1)
    else c.overrun m 0
  else if c.accepts1 m f n then (if !c.rxFull m 1 then c.fill m 1 f (n + 2) else c.overrun m 1)
  else c

/-- `rank = 4·TXP + s`, the order in which the chip sends (44_can_tx.md R458). -/
def Chip.rank (c : Chip) (m : ChipTable) (x : Fin 3) : Nat := 4 * c.txp m x + x.val

/-- The slot of higher rank, of two that may be pending. -/
def Chip.better (c : Chip) (m : ChipTable) (y : Option (Fin 3)) (x : Fin 3) : Option (Fin 3) :=
  if c.txreq m x then
    match y with
    | none => some x
    | some z => if c.rank m z < c.rank m x then some x else some z
  else y

/-- The pending slot of highest rank (44_can_tx.md R458). -/
def Chip.nextSlot (c : Chip) (m : ChipTable) : Option (Fin 3) := [0, 1, 2].foldl (c.better m) none

/-- The bytes of the frame in a slot, header and payload (44_can_tx.md R455). -/
def Chip.slotBytes (c : Chip) (m : ChipTable) (x : Fin 3) : List Byte :=
  c.readList (m.txSidh x)
    (5 + payloadLength ((c.cell (m.txSidh x + 4)).getLsbD 6)
      ((c.cell (m.txSidh x + 4)).extractLsb' 0 4).toNat)

/-- With the bus free, the chip starts the pending slot of highest rank: the frame goes out as it stands in the slot now,
whatever is written to the slot's priority later (44_can_tx.md R458, R460). -/
def Chip.start (c : Chip) (m : ChipTable) : Chip :=
  if c.onBus.isSome || !c.modeSends m then c
  else { c with onBus := (c.nextSlot m).map fun x => ⟨x, c.slotBytes m x⟩ }

/-- The frame on the bus has been sent, and its slot is free again (44_can_tx.md R458, 60_exceptions.md R613 item 3). No
rule says what becomes of it when the chip has meanwhile entered a mode that does not send: it stays on the bus and may
complete, DESIGN CHOICE (assumption 32). -/
def Chip.complete (c : Chip) (m : ChipTable) : Chip :=
  match c.onBus with
  | none => c
  | some f =>
    { (c.put (m.ctrl f.slot) (c.reg (m.ctrl f.slot) &&& ~~~bitByte m.txreq.val)).raise m (bitByte m.txif[f.slot]) with
      onBus := none
      sent := c.sent ++ [f] }

/-- The frame on the bus loses arbitration or hits an error: it stays pending (44_can_tx.md R458). -/
def Chip.lose (c : Chip) : Chip := { c with onBus := none }

/-- The chip enters the mode that CANCTRL requests (43_can_config.md R424). When it does so is not stated
(assumption 17). A frame on the bus stays there, whatever the mode, DESIGN CHOICE (assumption 32). -/
def Chip.enterMode (c : Chip) (m : ChipTable) : Chip :=
  c.put m.canstat (mergeBits ((7 : Byte) <<< m.opmod.val) (c.reg m.canstat) (c.reg m.canctrl))

/-- What the chip does on its own; `n` numbers the next free byte. -/
def Chip.act (c : Chip) (m : ChipTable) (e : ChipEvent) (n : Nat) : Chip :=
  match e with
  | .receive f => c.receive m f n
  | .start => c.start m
  | .complete => c.complete m
  | .lose => c.lose
  | .enterMode => c.enterMode m
  | .busError flags tx rx => c.busError m flags tx rx
  | .poke a v => c.poke m a.val v

end Sys2Proof.Machine
end

