-- ==== Sys2Proof/Machine/Ops.lean ====
section
/-! DEFINITION. The named operations over the state that the meanings share: buffers and descriptors with the ownership
rule, the protocol stall and the leaving of it, the response, the pulses, the pins, and the serial transactions. -/

namespace Sys2Proof.Machine

/-! ### Sequencing -/

/-- The first part's outcome, and on a next state the second part's. -/
def andThen (r : Res) (f : State → Res) : Res :=
  match r with
  | .next s => f s
  | .fault e => .fault e
  | .refused e => .refused e

/-! ### Buffers and descriptors (10_state.md R41, 20_memory.md R100, R107) -/

/-- Where a buffer's byte space lies in memory (assumption 7, DESIGN CHOICE, safe: no rule can see it). -/
def Buf.base : Buf → Nat
  | .ep0out => 0x000
  | .ep0in => 0x040
  | .bin k => 0x080 + 0x040 * k.val
  | .bout k => 0x100 + 0x040 * k.val

/-- How many bytes a buffer has (20_memory.md R100). -/
def Buf.size (cfg : Params) : Buf → Nat
  | .ep0out => cfg.ep0Size.bytes
  | .ep0in => cfg.ep0Size.bytes
  | .bin _ => cfg.bulkSize.val
  | .bout _ => cfg.bulkSize.val

/-- The descriptor of a buffer. -/
def Bds.get (d : Bds) : Buf → Bd
  | .ep0out => d.ep0out
  | .ep0in => d.ep0in
  | .bin 0 => d.bin0
  | .bin 1 => d.bin1
  | .bout 0 => d.bout0
  | .bout 1 => d.bout1

/-- The descriptors with one of them changed. -/
def Bds.set (d : Bds) (b : Buf) (x : Bd) : Bds :=
  match b with
  | .ep0out => { d with ep0out := x }
  | .ep0in => { d with ep0in := x }
  | .bin 0 => { d with bin0 := x }
  | .bin 1 => { d with bin1 := x }
  | .bout 0 => { d with bout0 := x }
  | .bout 1 => { d with bout1 := x }

/-- The descriptor of a buffer. -/
def State.bd (s : State) (b : Buf) : Bd := s.bds.get b

/-- The state with one descriptor changed. -/
def State.setBd (s : State) (b : Buf) (x : Bd) : State := { s with bds := s.bds.set b x }

/-- The byte at an offset of a buffer, as memory holds it. -/
def State.byteAt (s : State) (b : Buf) (off : Nat) : Byte := s.mem.read (b.base + off)

/-- `MemRead` of one byte by the block (00_scope.md R11). -/
def memRead (b : Buf) (off : Nat) (s : State) : Except Fault Byte :=
  if (s.bd b).own = .sie then .error (.ownership b)
  else if off < b.size s.cfg then .ok (s.byteAt b off)
  else .error (.noSuchByte b off)

/-- `MemRead` of `n` bytes by the block, byte by byte (20_memory.md R102). -/
def memReadList (b : Buf) (off : Nat) : Nat → State → Except Fault (List Byte)
  | 0, _ => .ok []
  | n + 1, s =>
    match memRead b off s with
    | .error e => .error e
    | .ok v =>
      match memReadList b (off + 1) n s with
      | .error e => .error e
      | .ok vs => .ok (v :: vs)

/-- `MemWrite` of one byte by the block (00_scope.md R11). -/
def memWrite (b : Buf) (off : Nat) (v : Byte) (s : State) : Res :=
  if (s.bd b).own = .sie then .fault (.ownership b)
  else if off < b.size s.cfg then .next { s with mem := s.mem.write (b.base + off) v }
  else .fault (.noSuchByte b off)

/-- `MemWrite` of several bytes by the block, byte by byte (20_memory.md R102). -/
def memWriteList (b : Buf) (off : Nat) : List Byte → State → Res
  | [], s => .next s
  | v :: vs, s => andThen (memWrite b off v s) (memWriteList b (off + 1) vs)

/-- `Arm(bd, count)`: the buffer is handed to the SIE (00_scope.md R12, 20_memory.md R111). -/
def arm (b : Buf) (count : Nat) (s : State) : Res :=
  if (s.bd b).own = .sie then .fault (.ownership b) else .next (s.setBd b ⟨.sie, count⟩)

/-- `setup <- false; Arm(ep0out, EP0_SIZE)`, the re-arming of endpoint 0 OUT (40_usb_control.md R203). -/
def rearmEp0out (s : State) : Res :=
  arm .ep0out s.cfg.ep0Size.bytes { s with bds := { s.bds with ep0setup := false } }

/-! ### The protocol stall: the block's exception, and the leaving of it (60_exceptions.md R601, R602) -/

/-- The control state with every transfer abandoned. -/
def idleCtl (stall : Bool) : Ctl := { pendingAddr := none, lcPending := false, xfer := none, stall := stall }

/-- `raise Stall`: the block's one exception. `StallEP0()` (40_usb_control.md R206); no IN packet is armed. What handled
the transaction re-arms endpoint 0 OUT afterwards (R203). -/
def raiseStall (s : State) : State := { s with ctl := idleCtl true }

/-- The SETUP prologue: the transfer in progress is abandoned and the stall state is left (40_usb_control.md R201). -/
def leaveStall (s : State) : State := { s with ctl := idleCtl false }

/-! ### The command port (30_encoding.md R146) and the free values -/

/-- `respond(status, data)`. -/
def respond (status : Status) (result : List Byte) (s : State) : State :=
  { s with response := some ⟨status, result⟩ }

/-- The byte of a Boolean result (30_encoding.md R142). -/
def boolByte (b : Bool) : Byte := if b then 0x01 else 0x00

/-- `n` free bytes, from number `first` on. -/
def freeBytes (first : Nat) : Nat → List Byte
  | 0 => []
  | n + 1 => Config.freeByte first :: freeBytes (first + 1) n

/-- The state after `n` free bytes have been drawn. -/
def State.draw (s : State) (n : Nat) : State := { s with draws := s.draws + n }

/-! ### The SIE interface (10_state.md R73) -/

/-- The endpoint that an address names (10_state.md R35). -/
def endpointOf (cfg : Params) (e : Byte) : Option Endpoint :=
  if e = cfg.epNotify then some .notify
  else if e = cfg.epOut then some .out
  else if e = cfg.epIn then some .in_
  else none

/-- `dev.halt[e]`. -/
def Halt.get (h : Halt) : Endpoint → Bool
  | .notify => h.notify
  | .out => h.out
  | .in_ => h.in_

/-- `dev.halt[e] <- v`. -/
def Halt.set (h : Halt) (e : Endpoint) (v : Bool) : Halt :=
  match e with
  | .notify => { h with notify := v }
  | .out => { h with out := v }
  | .in_ => { h with in_ := v }

/-- `dev.halt[e] <- v` in the state. -/
def setHalt (e : Endpoint) (v : Bool) (s : State) : State :=
  { s with dev := { s.dev with halt := s.dev.halt.set e v } }

/-- The toggle of an endpoint restarts at DATA0. -/
def Toggles.restart (t : Toggles) : Endpoint → Toggles
  | .notify => { t with notify := false }
  | .out => { t with out := false }
  | .in_ => { t with in_ := false }

/-- The pulse `toggleReset(e)`: the SIE restarts the toggle of endpoint e at DATA0 (60_exceptions.md R612 item 6). -/
def toggleReset (e : Endpoint) (s : State) : State :=
  { s with pulses := s.pulses ++ [.toggleReset e], sie := { s.sie with toggles := s.sie.toggles.restart e } }

/-- The pulse `ppReset`: the SIE restarts both alternations at buffer 0 (60_exceptions.md R612 item 7). -/
def ppReset (s : State) : State :=
  { s with pulses := s.pulses ++ [.ppReset], sie := { s.sie with nextIn := 0, nextOut := 0 } }

/-- The address output (10_state.md R73). -/
def State.addrOut (s : State) : BitVec 7 := s.dev.addr

/-- The stall output of endpoint 0 (10_state.md R73). -/
def State.stallOut0 (s : State) : Bool := s.ctl.stall

/-- The stall output of a non-control endpoint (10_state.md R73). -/
def State.stallOut (s : State) (e : Endpoint) : Bool := s.dev.halt.get e

/-! ### What happens outside -/

/-- A pin's wire changes. -/
def Pins.setWire (p : Pins) (x : Pin) (w : Wire) : Pins :=
  match x with
  | .rx0 => { p with rx0 := w }
  | .rx1 => { p with rx1 := w }
  | .err => { p with err := w }

/-- The millisecond counter one later: it wraps from 59999 to 0 (70_reset_and_hazards.md R741). -/
def nextTick (t : BitVec 16) : BitVec 16 := if t = 59999 then 0 else t + 1

/-- The clock advances (70_reset_and_hazards.md R741). -/
def tick (s : State) : State := { s with clock := nextTick s.clock }

/-- What one thing that happens outside does. A chip event may take 6 free bytes (assumption 33). -/
def outsideAct (o : Outside) (s : State) : State :=
  match o with
  | .chip e => { s with chip := s.chip.act s.cfg.chip e s.draws, draws := s.draws + 6 }
  | .wire p w => { s with pins := s.pins.setWire p w }

/-- Several things that happen outside, in order. -/
def outsideActs : List Outside → State → State
  | [], s => s
  | o :: os, s => outsideActs os (outsideAct o s)

/-- What happens outside before the next transaction or pin sample of the request (20_memory.md R112, assumption 22). -/
def letOutside (s : State) : State :=
  match s.during with
  | [] => s
  | os :: rest => outsideActs os { s with during := rest }

/-! ### The pins (10_state.md R71) -/

/-- The level a pin input shows now. -/
def State.pinNow (s : State) : Pin → Bool
  | .rx0 => s.pins.rx0.level (s.chip.rxPin s.cfg.chip 0)
  | .rx1 => s.pins.rx1.level (s.chip.rxPin s.cfg.chip 1)
  | .err => s.pins.err.level (s.chip.errPin s.cfg.chip)

/-- Sampling a pin: it may have changed since anything the block did before. -/
def samplePin (p : Pin) (s : State) : Bool × State := ((letOutside s).pinNow p, letOutside s)

/-! ### The serial transactions (42_serial_bus.md R350 to R358) -/

/-- The end of `Txn(mosi)`: the chip is left as `c`; the bytes received are free ones, which the block ignores (R359),
and then `reply`; `nCS` is released and `SCK` idle (R361). -/
def State.exchange (s : State) (mosi reply : List Byte) (c : Chip) : State :=
  { s with
    chip := c
    draws := s.draws + (mosi.length - reply.length)
    serial := { released := true, sck := s.cfg.spiCpol }
    txns := s.txns ++ [⟨mosi, freeBytes s.draws (mosi.length - reply.length) ++ reply⟩] }

/-- RESET (42_serial_bus.md R352). -/
def txnReset (s : State) : State :=
  let s := letOutside s
  (s.draw 128).exchange [s.cfg.chip.cmdReset] [] (s.chip.reset s.cfg.chip s.draws)

/-- READ (42_serial_bus.md R353): the byte received during the dummy. -/
def txnRead (a : Byte) (s : State) : Byte × State :=
  let s := letOutside s
  let v := s.chip.readAt a.toNat (Config.freeByte s.draws)
  (v, (s.draw 1).exchange [s.cfg.chip.cmdRead, a, 0x00] [v] s.chip)

/-- WRITE (42_serial_bus.md R354): the bytes go to a, a + 1, ... -/
def txnWrite (a : Byte) (ds : List Byte) (s : State) : State :=
  let s := letOutside s
  s.exchange (s.cfg.chip.cmdWrite :: a :: ds) [] (s.chip.writeList s.cfg.chip a.toNat ds)

/-- BIT MODIFY (42_serial_bus.md R355). -/
def txnBitModify (a k d : Byte) (s : State) : State :=
  let s := letOutside s
  s.exchange [s.cfg.chip.cmdBitModify, a, k, d] [] (s.chip.bitModify s.cfg.chip a.toNat k d)

/-- READ STATUS (42_serial_bus.md R356): the byte received during the dummy. -/
def txnReadStatus (s : State) : Byte × State :=
  let s := letOutside s
  (s.chip.status s.cfg.chip,
    s.exchange [s.cfg.chip.cmdReadStatus, 0x00] [s.chip.status s.cfg.chip] s.chip)

/-- LOAD TX (42_serial_bus.md R357): the bytes go to the slot's SIDH and the registers after it. -/
def txnLoadTx (slot : Fin 3) (ds : List Byte) (s : State) : State :=
  let s := letOutside s
  s.exchange (s.cfg.chip.cmdLoadTx[slot] :: ds) [] (s.chip.writeList s.cfg.chip (s.cfg.chip.txSidh slot) ds)

/-- What READ RX brings: the decoded header, and the payload bytes read. -/
structure RxRead where
  header : RxHeader
  payload : List Byte
deriving DecidableEq, Repr

/-- The header that receive buffer `b` holds (45_can_rx.md R503). -/
def Chip.rxHeader (c : Chip) (m : ChipTable) (b : Fin 2) : RxHeader :=
  decodeHeader (c.cell (m.rxSidh b)) (c.cell (m.rxSidh b + 1)) (c.cell (m.rxSidh b + 2))
    (c.cell (m.rxSidh b + 3)) (c.cell (m.rxSidh b + 4))

/-- How many payload bytes are read from receive buffer `b` (45_can_rx.md R505). -/
def Chip.rxLength (c : Chip) (m : ChipTable) (b : Fin 2) : Nat :=
  payloadLength (c.rxHeader m b).rtr (c.rxHeader m b).dlc.toNat

/-- READ RX (42_serial_bus.md R358, 45_can_rx.md R503, R505): 5 header bytes, then in the same transaction as many
payload bytes as the header says; then the buffer is free. -/
def txnReadRx (b : Fin 2) (s : State) : RxRead × State :=
  let s := letOutside s
  let x := s.cfg.chip.rxSidh b
  let p := s.chip.rxLength s.cfg.chip b
  (⟨s.chip.rxHeader s.cfg.chip b, s.chip.readList (x + 5) p⟩,
    s.exchange (s.cfg.chip.cmdReadRx[b] :: List.replicate (5 + p) 0x00) (s.chip.readList x (5 + p))
      (s.chip.release s.cfg.chip b))

end Sys2Proof.Machine
end

