-- ==== Sys2Proof/Machine/CanConfig.lean ====
section
/-! DEFINITION. CAN configuration (43_can_config.md): bit timing, acceptance filters, error flags, and initialisation
with the pin self-test. -/

namespace Sys2Proof.Machine

/-! ### Bit timing (43_can_config.md R402, R403) -/

/-- The three writes of a timing triple, in the order CNF1, CNF2, CNF3 (43_can_config.md R402). -/
def timingWrites (c1 c2 c3 : Byte) (s : State) : State :=
  txnWrite s.cfg.chip.cnf3 [c3] (txnWrite s.cfg.chip.cnf2 [c2] (txnWrite s.cfg.chip.cnf1 [c1] s))

/-- CAN_SET_TIMING (43_can_config.md R402). -/
def execCanSetTiming (c1 c2 c3 : Byte) (s : State) : Res := .next (respond .ok [] (timingWrites c1 c2 c3 s))

/-- CAN_SET_PRESET (43_can_config.md R403): an index above 8 is invalid. -/
def execCanSetPreset (k : Byte) (s : State) : Res :=
  if h : k.toNat < 9 then
    .next (respond .ok []
      (timingWrites s.cfg.preset[k.toNat].cnf1 s.cfg.preset[k.toNat].cnf2 s.cfg.preset[k.toNat].cnf3 s))
  else .next (respond .no [] s)

/-! ### Acceptance filters (43_can_config.md R407, R408) -/

/-- The native mask written to both mask registers (43_can_config.md R407). -/
def maskWrites (m0 m1 m2 m3 : Byte) (s : State) : State :=
  let m := [nativeMask m0, nativeMask m1, nativeMask m2, nativeMask m3]
  txnWrite s.cfg.chip.rxm[1] m (txnWrite s.cfg.chip.rxm[0] m s)

/-- The code written to the three pairs of filters (43_can_config.md R408). -/
def codeWrites (c0 c1 c2 c3 : Byte) (s : State) : State :=
  let fs := standardCode s.cfg.chip c0 c1 c2 c3
  let fe := extendedCode s.cfg.chip c0 c1 c2 c3
  let x := s.cfg.chip.rxf
  txnWrite x[5] fe (txnWrite x[4] fs (txnWrite x[3] fe (txnWrite x[2] fs (txnWrite x[1] fe (txnWrite x[0] fs s)))))

/-- CAN_SET_MASK (43_can_config.md R407). -/
def execCanSetMask (m0 m1 m2 m3 : Byte) (s : State) : Res := .next (respond .ok [] (maskWrites m0 m1 m2 m3 s))

/-- CAN_SET_CODE (43_can_config.md R408). -/
def execCanSetCode (c0 c1 c2 c3 : Byte) (s : State) : Res := .next (respond .ok [] (codeWrites c0 c1 c2 c3 s))

/-! ### Error flags (43_can_config.md R412) -/

/-- CAN_READ_ERRFLAGS (43_can_config.md R412). -/
def execCanReadErrflags (s : State) : Res :=
  .next (respond .ok [errorWord s.cfg.chip (txnRead s.cfg.chip.eflg s).1] (txnRead s.cfg.chip.eflg s).2)

/-! ### Initialisation (43_can_config.md R420, R421) -/

/-- One transaction of a self-test stage, sent as it stands in the stage, whatever its length (assumption 34, DESIGN
CHOICE). -/
def testTxn (t : TestTxn) (s : State) : State :=
  match t with
  | .reset => txnReset s
  | .read a => (txnRead a s).2
  | .write a ds => txnWrite a ds s
  | .bitModify a k d => txnBitModify a k d s
  | .readStatus => (txnReadStatus s).2
  | .loadTx x ds => txnLoadTx x ds s
  | .readRx b => (txnReadRx b s).2

/-- The transactions of a self-test stage, in order. -/
def testTxns : List TestTxn → State → State
  | [], s => s
  | t :: ts, s => testTxns ts (testTxn t s)

/-- One stage: its transactions, and then the three pins sampled in the order rx0, rx1, err (43_can_config.md R420). -/
def testStage (g : SelfTestStage) (s : State) : Bool × State :=
  let a := samplePin .rx0 (testTxns g.txns s)
  let b := samplePin .rx1 a.2
  let c := samplePin .err b.2
  (a.1 == g.rx0 && b.1 == g.rx1 && c.1 == g.err, c.2)

/-- The stages, in order, all of them run whatever they show (43_can_config.md R420). -/
def testStages : List SelfTestStage → State → Bool × State
  | [], s => (true, s)
  | g :: gs, s =>
    let a := testStage g s
    let b := testStages gs a.2
    (a.1 && b.1, b.2)

/-- Both pins buffer-full interrupt outputs: BnBFM and BnBFE of both (43_can_config.md R401). R421 writes the byte as
the literal 0x0F, which this is at the default CHIP; for a CHIP with other positions the bits are made from its table:
DESIGN CHOICE (assumption 5). -/
def pinFunction (m : ChipTable) : Byte := bitByte m.bfm[0] ||| bitByte m.bfm[1] ||| bitByte m.bfe[0] ||| bitByte m.bfe[1]

/-- `SELFTEST_RESTORE` (43_can_config.md R421). -/
def restoreTxns (cfg : Params) : List TestTxn :=
  [.write cfg.chip.bfpctrl [pinFunction cfg.chip], .write cfg.chip.caninte [cfg.inteAfterInit]]

/-- The transactions of CAN_INIT before the self-test (43_can_config.md R420): RXB0CTRL is written with BUKT alone.
R420 writes the literal 0x04, which that is at the default CHIP; for a CHIP with another position it is made from its
table: DESIGN CHOICE (assumption 5). -/
def initWrites (s : State) : State :=
  txnWrite s.cfg.chip.caninte [0x00] (txnWrite s.cfg.chip.rxbctrl[0] [bitByte s.cfg.chip.bukt.val]
    (codeWrites 0x00 0x00 0x00 0x00 (maskWrites 0xFF 0xFF 0xFF 0xFF (txnReset s))))

/-- CAN_INIT (43_can_config.md R420): always answered `OK`. -/
def execCanInit (s : State) : Res :=
  let a := testStages s.cfg.selfTest.toList (initWrites s)
  let s := testTxns (restoreTxns s.cfg) a.2
  .next (respond .ok [boolByte a.1]
    { s with can := { txprio := 3, slotPrio := #v[0, 0, 0], rxLast := s.cfg.rxLastReset, selfTestOk := a.1 } })

end Sys2Proof.Machine
end

