-- ==== Sys2Proof/Machine/CanRx.lean ====
section
/-! DEFINITION. CAN_RECEIVE: the dual-buffer receiver with timestamping (45_can_rx.md). -/

namespace Sys2Proof.Machine

/-- The buffer to service, of the two pins and the buffer serviced last (45_can_rx.md R500, R501). -/
def rxChoice (r0 r1 : Bool) (last : Fin 2) : Option (Fin 2) :=
  if r0 && r1 then some (1 - last) else if r0 then some 0 else if r1 then some 1 else none

/-- Servicing buffer `b`: it is remembered, the clock is read, and then the buffer (45_can_rx.md R500 to R503). A clock
value outside the contract is copied unchanged (93_implementation_defined.md U4, assumption 10). -/
def serviceRx (b : Fin 2) (s : State) : State :=
  let r := txnReadRx b { s with can := { s.can with rxLast := b } }
  respond .ok (resultBytes r.1.header r.1.payload s.clock) r.2

/-- CAN_RECEIVE (45_can_rx.md R500). -/
def execCanReceive (s : State) : Res :=
  let p0 := samplePin .rx0 s
  let p1 := samplePin .rx1 p0.2
  match rxChoice p0.1 p1.1 p1.2.can.rxLast with
  | none => .next (respond .no [] p1.2)
  | some b => .next (serviceRx b p1.2)

end Sys2Proof.Machine
end

