-- ==== Sys2Proof/Machine/CanTx.lean ====
section
/-! DEFINITION. CAN_SEND: the transmitter with priority arbitration (44_can_tx.md). -/

namespace Sys2Proof.Machine

/-- The promotion transactions, in order: only TXP of a slot changes (44_can_tx.md R454). The mask, 0x03 in R454, and
the value are made from the place of TXP in CHIP: DESIGN CHOICE (assumption 5). -/
def promoteTxns : List (Fin 3 × Fin 4) → State → State
  | [], s => s
  | (x, q) :: ps, s => promoteTxns ps (txnBitModify (s.cfg.chip.ctrl x) s.cfg.chip.txpMask (s.cfg.chip.txpField q) s)

/-- The priorities that the block remembers after promotions (44_can_tx.md R450). -/
def promotePrios (sp : Vector (Fin 4) 3) : List (Fin 3 × Fin 4) → Vector (Fin 4) 3
  | [] => sp
  | (x, q) :: ps => promotePrios (sp.set x q) ps

/-- The request byte: TXREQ and the priority (44_can_tx.md R456). R456 writes `0x08 | p`, which it is at the default
CHIP; for another CHIP it is made from its table: DESIGN CHOICE (assumption 5). -/
def requestByte (m : ChipTable) (p : Fin 4) : Byte := bitByte m.txreq.val ||| m.txpField p

/-- The transactions of an accepted frame: promotions, load, request (44_can_tx.md R454 to R456). -/
def sendTxns (ch : TxChoice) (load : List Byte) (s : State) : State :=
  txnWrite (s.cfg.chip.ctrl ch.slot) [requestByte s.cfg.chip ch.prio]
    (txnLoadTx ch.slot load (promoteTxns ch.promos s))

/-- What the block remembers of an accepted frame (44_can_tx.md R450). -/
def rememberSend (ch : TxChoice) (s : State) : State :=
  { s with
    can := { s.can with
      txprio := ch.prio
      slotPrio := (promotePrios s.can.slotPrio ch.promos).set ch.slot ch.prio } }

/-- CAN_SEND (44_can_tx.md R450): a dlc above 15 is invalid, and with all three slots busy the frame is refused. -/
def execCanSend (flags : Byte) (id : BitVec 32) (dlc : Byte) (data : Vector Byte 8) (s : State) : Res :=
  if 15 < dlc.toNat then .next (respond .no [] s)
  else
    let st := (txnReadStatus s).1
    let s := (txnReadStatus s).2
    match chooseSlot (busySlots s.cfg.chip st) s.can.slotPrio with
    | none => .next (respond .no [] s)
    | some ch =>
      let load := loadBytes (frameExt flags) (frameRtr flags) (frameId (frameExt flags) id) dlc data
      .next (respond .ok [] (rememberSend ch (sendTxns ch load s)))

end Sys2Proof.Machine
end

