-- ==== Sys2Proof/Machine/Serial.lean ====
section
/-! DEFINITION. The serial-bus commands and the raw register operations of the client built on them
(42_serial_bus.md). -/

namespace Sys2Proof.Machine

/-! ### The serial commands (42_serial_bus.md R352 to R358) -/

/-- SPI_RESET (42_serial_bus.md R352). -/
def execSpiReset (s : State) : Res := .next (txnReset s)

/-- SPI_READ (42_serial_bus.md R353). -/
def execSpiRead (a : Byte) (s : State) : Res := .next (txnRead a s).2

/-- SPI_WRITE (42_serial_bus.md R354). -/
def execSpiWrite (a : Byte) (ds : List Byte) (s : State) : Res := .next (txnWrite a ds s)

/-- SPI_BIT_MODIFY (42_serial_bus.md R355). -/
def execSpiBitModify (a m d : Byte) (s : State) : Res := .next (txnBitModify a m d s)

/-- SPI_READ_STATUS (42_serial_bus.md R356). -/
def execSpiReadStatus (s : State) : Res := .next (txnReadStatus s).2

/-- SPI_LOAD_TX (42_serial_bus.md R357). -/
def execSpiLoadTx (slot : Fin 3) (ds : List Byte) (s : State) : Res := .next (txnLoadTx slot ds s)

/-- SPI_READ_RX (42_serial_bus.md R358). -/
def execSpiReadRx (b : Fin 2) (s : State) : Res := .next (txnReadRx b s).2

/-! ### The raw operations of the client (42_serial_bus.md R352 to R356) -/

/-- CAN_RESET (42_serial_bus.md R352). -/
def execCanReset (s : State) : Res := .next (respond .ok [] (txnReset s))

/-- CAN_READ_REG (42_serial_bus.md R353): the address is not checked. -/
def execCanReadReg (a : Byte) (s : State) : Res := .next (respond .ok [(txnRead a s).1] (txnRead a s).2)

/-- CAN_WRITE_REG (42_serial_bus.md R354). -/
def execCanWriteReg (a d : Byte) (s : State) : Res := .next (respond .ok [] (txnWrite a [d] s))

/-- CAN_BIT_MODIFY (42_serial_bus.md R355). -/
def execCanBitModify (a m d : Byte) (s : State) : Res := .next (respond .ok [] (txnBitModify a m d s))

/-- CAN_READ_STATUS (42_serial_bus.md R356). -/
def execCanReadStatus (s : State) : Res := .next (respond .ok [(txnReadStatus s).1] (txnReadStatus s).2)

end Sys2Proof.Machine
end

