-- ==== Sys2Proof/Machine/Bulk.lean ====
section
/-! DEFINITION. The bulk endpoint manager (41_usb_bulk.md): its shared operations and the meanings of USB_READY,
USB_PUT, USB_FLUSH, USB_HAS_DATA and USB_GET. -/

namespace Sys2Proof.Machine

/-- Both bulk-OUT buffers handed to the SIE, ready to receive (41_usb_bulk.md R300). -/
def armBulkOut (s : State) : Res :=
  andThen (arm (.bout 0) s.cfg.bulkSize.val s) (fun s => arm (.bout 1) s.cfg.bulkSize.val s)

/-- The first part of `BulkReset`: every bulk descriptor is taken back, whatever its owner, and the managers restart at
buffer 0 (41_usb_bulk.md R300, 20_memory.md R107). The bytes of the buffers stay as they are: "same" in
70_reset_and_hazards.md R701, any value in 93_implementation_defined.md U2; DESIGN CHOICE (assumption 42). -/
def bulkTakeBack (s : State) : State :=
  ppReset
    { s with
      bds := { s.bds with bin0 := ⟨.sw, 0⟩, bin1 := ⟨.sw, 0⟩, bout0 := ⟨.sw, 0⟩, bout1 := ⟨.sw, 0⟩ }
      bin := { active := 0, fill := 0, idle := 0 }
      bout := { active := 0, pos := 0 } }

/-- `BulkReset(configured)` (41_usb_bulk.md R300). -/
def bulkReset (configured : Bool) (s : State) : Res :=
  if configured then armBulkOut (bulkTakeBack s) else .next (bulkTakeBack s)

/-- "Configured": `S.dev.config ≠ 0` (10_state.md R34). -/
def State.configured (s : State) : Bool := s.dev.config != 0

/-- The active bulk-IN buffer is free for filling (41_usb_bulk.md R301). -/
def State.inReady (s : State) : Bool := s.configured && (s.bd (.bin s.bin.active)).own == .sw

/-- The active bulk-OUT buffer holds an unread byte (41_usb_bulk.md R310). -/
def State.outHasData (s : State) : Bool :=
  s.configured && (s.bd (.bout s.bout.active)).own == .sw && decide (s.bout.pos < (s.bd (.bout s.bout.active)).count)

/-- `Flush()`: the filled buffer goes to the SIE and the other becomes active; skipped if nothing was written
(41_usb_bulk.md R303). -/
def flush (s : State) : Res :=
  if 0 < s.bin.fill then
    andThen (arm (.bin s.bin.active) s.bin.fill s) fun s =>
      .next { s with bin := { active := 1 - s.bin.active, fill := 0, idle := 0 } }
  else .next { s with bin := { s.bin with idle := 0 } }

/-- A byte is appended to the active bulk-IN buffer, which is flushed when full (41_usb_bulk.md R302). -/
def putByte (b : Byte) (s : State) : Res :=
  andThen (memWrite (.bin s.bin.active) s.bin.fill b s) fun s =>
    let s := { s with bin := { s.bin with fill := s.bin.fill + 1, idle := 0 } }
    if s.bin.fill = s.cfg.bulkSize.val then flush s else .next s

/-- The byte just read was the last of the active bulk-OUT buffer, or a zero-length packet is passed over: the buffer is
re-armed and the other becomes active (41_usb_bulk.md R311, R312). -/
def nextOutBuffer (s : State) : Res :=
  andThen (arm (.bout s.bout.active) s.cfg.bulkSize.val s) fun s =>
    .next { s with bout := { active := 1 - s.bout.active, pos := 0 } }

/-- The next unread byte is taken from the active bulk-OUT buffer (41_usb_bulk.md R311). -/
def getByte (s : State) : Res :=
  match memRead (.bout s.bout.active) s.bout.pos s with
  | .error e => .fault e
  | .ok b =>
    if s.bout.pos + 1 = (s.bd (.bout s.bout.active)).count then
      andThen (nextOutBuffer s) fun s => .next (respond .ok [b] s)
    else .next (respond .ok [b] { s with bout := { s.bout with pos := s.bout.pos + 1 } })

/-- `BulkOutZeroLength()`: a received zero-length packet is passed over (41_usb_bulk.md R312). -/
def bulkOutZeroLength (s : State) : Res :=
  if s.configured = true ∧ (s.bd (.bout s.bout.active)).own = .sw ∧ (s.bd (.bout s.bout.active)).count = 0 then
    nextOutBuffer s
  else .next s

/-- `IdleStep()`: a poll without a new byte counts, and at the threshold the bytes are flushed (41_usb_bulk.md R304). -/
def idleStep (s : State) : Res :=
  if 0 < s.bin.fill then
    let s := { s with bin := { s.bin with idle := s.bin.idle + 1 } }
    if s.cfg.idleFlushPolls.val ≤ s.bin.idle then flush s else .next s
  else .next { s with bin := { s.bin with idle := 0 } }

/-! ### The client operations -/

/-- USB_READY (41_usb_bulk.md R301). -/
def execUsbReady (s : State) : Res := .next (respond .ok [boolByte s.inReady] s)

/-- USB_PUT (41_usb_bulk.md R302): a byte put while the active buffer is busy, or before configuration, is dropped. -/
def execUsbPut (b : Byte) (s : State) : Res :=
  if s.inReady then andThen (putByte b s) fun s => .next (respond .ok [] s) else .next (respond .ok [] s)

/-- USB_FLUSH (41_usb_bulk.md R303). -/
def execUsbFlush (s : State) : Res := andThen (flush s) fun s => .next (respond .ok [] s)

/-- USB_HAS_DATA (41_usb_bulk.md R310). -/
def execUsbHasData (s : State) : Res := .next (respond .ok [boolByte s.outHasData] s)

/-- USB_GET (41_usb_bulk.md R311): without an unread byte the result byte is `ANY`, a free value
(93_implementation_defined.md U1), and nothing changes. -/
def execUsbGet (s : State) : Res :=
  if s.outHasData then getByte s else .next (respond .ok [Config.freeByte s.draws] (s.draw 1))

end Sys2Proof.Machine
end

