-- ==== Sys2Proof/Machine/UsbControl.lean ====
section
/-! DEFINITION. The control-transfer state machine of endpoint 0 (40_usb_control.md): the stages of a transfer, and one
meaning per USB control request. A request's meaning is its own Action; what handles the SETUP packet does the prologue
before it and the re-arming after it (R201, R203). -/

namespace Sys2Proof.Machine

/-! ### Stages (40_usb_control.md R204 to R208) -/

/-- The serial character that goes to an offset of the reply, if one does (40_usb_control.md R208). R208's "for some j"
does not say which character goes to an offset that SERIAL_SLOTS names twice: the model takes the lowest j, a DESIGN
CHOICE (assumption 37). -/
def serialChar (cfg : Params) (o : Nat) : Option Byte :=
  if o = cfg.serialSlots[0] then some cfg.serial[0]
  else if o = cfg.serialSlots[1] then some cfg.serial[1]
  else if o = cfg.serialSlots[2] then some cfg.serial[2]
  else if o = cfg.serialSlots[3] then some cfg.serial[3]
  else none

/-- `Subst(x, o)` of a reply byte `d` at offset `o` (40_usb_control.md R208). -/
def substByte (cfg : Params) (subst : Bool) (o : Nat) (d : Byte) : Byte :=
  if subst then (serialChar cfg o).getD d else d

/-- The reply bytes from offset `o` on, as they are sent. -/
def substBytes (cfg : Params) (subst : Bool) (o : Nat) : List Byte → List Byte
  | [] => []
  | d :: ds => substByte cfg subst o d :: substBytes cfg subst (o + 1) ds

/-- The bytes of the next packet of a transfer (40_usb_control.md R205). -/
def chunkBytes (cfg : Params) (x : Xfer) : List Byte :=
  substBytes cfg x.subst x.off ((x.data.drop x.off).take (min cfg.ep0Size.bytes x.rem))

/-- `SendChunk()` of transfer `x` (40_usb_control.md R205). -/
def sendChunk (x : Xfer) (s : State) : Res :=
  let k := min s.cfg.ep0Size.bytes x.rem
  andThen (memWriteList .ep0in 0 (chunkBytes s.cfg x) s) fun s =>
    andThen (arm .ep0in k s) fun s =>
      .next { s with ctl := { s.ctl with xfer := some { x with off := x.off + k, rem := x.rem - k } } }

/-- The transfer that `StartIn(data, wLength, subst)` begins (40_usb_control.md R204). -/
def newXfer (cfg : Params) (data : List Byte) (wLength : Half) (subst : Bool) : Xfer :=
  let n := min wLength.toNat data.length
  { data := data, off := 0, rem := n, subst := subst
    zlpDue := cfg.sendZlp && decide (n < wLength.toNat) && decide (0 < n) && decide (n % cfg.ep0Size.bytes = 0) }

/-- `StartIn(data, wLength, subst)` (40_usb_control.md R204). -/
def startIn (data : List Byte) (wLength : Half) (subst : Bool) (s : State) : Res :=
  let x := newXfer s.cfg data wLength subst
  sendChunk x { s with ctl := { s.ctl with xfer := some x } }

/-- `StatusIn()`: the zero-length status packet (40_usb_control.md R207). -/
def statusIn (s : State) : Res := arm .ep0in 0 s

/-- `Continue(x)` (40_usb_control.md R231). -/
def continueIn (x : Xfer) (s : State) : Res :=
  if 0 < x.rem then sendChunk x s
  else if x.zlpDue then
    arm .ep0in 0 { s with ctl := { s.ctl with xfer := some { x with zlpDue := false } } }
  else .next { s with ctl := { s.ctl with xfer := none } }

/-! ### Standard requests (40_usb_control.md R210 to R222) -/

/-- The endpoint-halt reply (40_usb_control.md R218). -/
def haltReply (h : Bool) : List Byte := [boolByte h, 0x00]

/-- The address names endpoint 0, in either direction (40_usb_control.md R218, R219). -/
def isEndpoint0 (e : Byte) : Bool := e == 0x00 || e == 0x80

/-- GET_STATUS (40_usb_control.md R218). -/
def execGetStatus (_dir : BitVec 1) (recip : BitVec 5) (_wValue wIndex wLength : Half) (s : State) : Res :=
  if recip ≠ 2 then .next (raiseStall s)
  else if isEndpoint0 (lowByte wIndex) then startIn [0x00, 0x00] wLength false s
  else
    match endpointOf s.cfg (lowByte wIndex) with
    | some e => startIn (haltReply (s.dev.halt.get e)) wLength false s
    | none => .next (raiseStall s)

/-- SET_FEATURE (40_usb_control.md R219). -/
def execSetFeature (_dir : BitVec 1) (recip : BitVec 5) (wValue wIndex _wLength : Half) (s : State) : Res :=
  if recip ≠ 2 ∨ wValue ≠ 0 then .next (raiseStall s)
  else
    match endpointOf s.cfg (lowByte wIndex) with
    | some e => statusIn (setHalt e true s)
    | none => if isEndpoint0 (lowByte wIndex) then statusIn s else .next (raiseStall s)

/-- CLEAR_FEATURE (40_usb_control.md R220). -/
def execClearFeature (_dir : BitVec 1) (recip : BitVec 5) (wValue wIndex _wLength : Half) (s : State) : Res :=
  if recip ≠ 2 ∨ wValue ≠ 0 then .next (raiseStall s)
  else
    match endpointOf s.cfg (lowByte wIndex) with
    | some e => statusIn (toggleReset e (setHalt e false s))
    | none => if isEndpoint0 (lowByte wIndex) then statusIn s else .next (raiseStall s)

/-- SET_ADDRESS (40_usb_control.md R214): the address waits for the status stage. -/
def execSetAddress (_dir : BitVec 1) (_recip : BitVec 5) (wValue _wIndex _wLength : Half) (s : State) : Res :=
  if 127 < wValue.toNat then .next (raiseStall s)
  else statusIn { s with ctl := { s.ctl with pendingAddr := some (wValue.extractLsb' 0 7) } }

/-- GET_DESCRIPTOR, device (40_usb_control.md R210). -/
def execGetDescriptorDevice (_dir : BitVec 1) (_recip : BitVec 5) (index : Byte) (_wIndex wLength : Half) (s : State) :
    Res :=
  if index = 0 then startIn (descriptors s.cfg).device wLength false s else .next (raiseStall s)

/-- GET_DESCRIPTOR, configuration (40_usb_control.md R211). -/
def execGetDescriptorConfiguration (_dir : BitVec 1) (_recip : BitVec 5) (index : Byte) (_wIndex wLength : Half)
    (s : State) : Res :=
  if index = 0 then startIn (descriptors s.cfg).config wLength false s else .next (raiseStall s)

/-- GET_DESCRIPTOR, string (40_usb_control.md R212): the language is ignored. -/
def execGetDescriptorString (_dir : BitVec 1) (_recip : BitVec 5) (index : Byte) (_wIndex wLength : Half) (s : State) :
    Res :=
  match stringOf (descriptors s.cfg) index.toNat with
  | some str => startIn str wLength (index == s.cfg.serialStrIndex && s.cfg.serialAvailable) s
  | none => .next (raiseStall s)

/-- GET_DESCRIPTOR, any other type (40_usb_control.md R213). -/
def execGetDescriptorOther (_dir : BitVec 1) (_recip : BitVec 5) (_dtype _index : Byte) (_wIndex _wLength : Half)
    (s : State) : Res :=
  .next (raiseStall s)

/-- GET_CONFIGURATION (40_usb_control.md R216). -/
def execGetConfiguration (_dir : BitVec 1) (_recip : BitVec 5) (_wValue _wIndex wLength : Half) (s : State) : Res :=
  startIn [s.dev.config] wLength false s

/-- The halt features cleared and the toggles of the three endpoints restarted (40_usb_control.md R215, R240). -/
def clearEndpoints (s : State) : State :=
  toggleReset .in_ (setHalt .in_ false (toggleReset .out (setHalt .out false
    (toggleReset .notify (setHalt .notify false s)))))

/-- SET_CONFIGURATION (40_usb_control.md R215): `wValue[15:8]` is ignored. -/
def execSetConfiguration (_dir : BitVec 1) (_recip : BitVec 5) (wValue _wIndex _wLength : Half) (s : State) : Res :=
  if lowByte wValue = 0 ∨ lowByte wValue = s.cfg.configValue then
    andThen
      (bulkReset (lowByte wValue != 0) (clearEndpoints { s with dev := { s.dev with config := lowByte wValue } }))
      statusIn
  else .next (raiseStall s)

/-- GET_INTERFACE (40_usb_control.md R217). -/
def execGetInterface (_dir : BitVec 1) (_recip : BitVec 5) (_wValue wIndex wLength : Half) (s : State) : Res :=
  if (lowByte wIndex).toNat ≤ 1 then startIn [0x00] wLength false s else .next (raiseStall s)

/-- SET_INTERFACE (40_usb_control.md R222). -/
def execSetInterface (_dir : BitVec 1) (_recip : BitVec 5) (wValue wIndex _wLength : Half) (s : State) : Res :=
  if (lowByte wIndex).toNat ≤ 1 ∧ wValue = 0 then statusIn s else .next (raiseStall s)

/-- SYNCH_FRAME (40_usb_control.md R221): the endpoint is not checked. -/
def execSynchFrame (_dir : BitVec 1) (_recip : BitVec 5) (_wValue _wIndex wLength : Half) (s : State) : Res :=
  startIn [0x00, 0x00] wLength false s

/-! ### Class requests (40_usb_control.md R223 to R227) -/

/-- SEND_ENCAPSULATED_COMMAND (40_usb_control.md R226). -/
def execSendEncapsulatedCommand (_dir : BitVec 1) (_recip : BitVec 5) (_wValue _wIndex _wLength : Half) (s : State) :
    Res :=
  statusIn s

/-- GET_ENCAPSULATED_RESPONSE (40_usb_control.md R227). -/
def execGetEncapsulatedResponse (_dir : BitVec 1) (_recip : BitVec 5) (_wValue _wIndex wLength : Half) (s : State) :
    Res :=
  startIn [] wLength false s

/-- SET_LINE_CODING (40_usb_control.md R223): the data stage is handled by R232. -/
def execSetLineCoding (_dir : BitVec 1) (_recip : BitVec 5) (_wValue _wIndex wLength : Half) (s : State) : Res :=
  if wLength = 0 then statusIn s else .next { s with ctl := { s.ctl with lcPending := true } }

/-- GET_LINE_CODING (40_usb_control.md R224). -/
def execGetLineCoding (_dir : BitVec 1) (_recip : BitVec 5) (_wValue _wIndex wLength : Half) (s : State) : Res :=
  startIn s.dev.lineCoding.toList wLength false s

/-- SET_CONTROL_LINE_STATE (40_usb_control.md R225). -/
def execSetControlLineState (_dir : BitVec 1) (_recip : BitVec 5) (_wValue _wIndex _wLength : Half) (s : State) : Res :=
  statusIn s

end Sys2Proof.Machine
end

