-- ==== Sys2Proof/Machine/UsbPoll.lean ====
section
/-! DEFINITION. USB_POLL (41_usb_bulk.md R320) and the handling of the SIE's events: the SETUP packet and its dispatch,
the data and status stages, the endpoint-0 IN completion and the USB bus reset (40_usb_control.md). -/

namespace Sys2Proof.Machine

/-- Dispatch of a decoded SETUP packet to its request rule; what no request rule takes raises Stall
(40_usb_control.md R202, 30_encoding.md R156). -/
def dispatchSetup (r : Except DecodeError Instr) (s : State) : Res :=
  match r with
  | .ok (.getStatus d r v x l) => execGetStatus d r v x l s
  | .ok (.clearFeature d r v x l) => execClearFeature d r v x l s
  | .ok (.setFeature d r v x l) => execSetFeature d r v x l s
  | .ok (.setAddress d r v x l) => execSetAddress d r v x l s
  | .ok (.getDescriptorDevice d r i x l) => execGetDescriptorDevice d r i x l s
  | .ok (.getDescriptorConfiguration d r i x l) => execGetDescriptorConfiguration d r i x l s
  | .ok (.getDescriptorString d r i x l) => execGetDescriptorString d r i x l s
  | .ok (.getDescriptorOther d r t i x l) => execGetDescriptorOther d r t i x l s
  | .ok (.getConfiguration d r v x l) => execGetConfiguration d r v x l s
  | .ok (.setConfiguration d r v x l) => execSetConfiguration d r v x l s
  | .ok (.getInterface d r v x l) => execGetInterface d r v x l s
  | .ok (.setInterface d r v x l) => execSetInterface d r v x l s
  | .ok (.synchFrame d r v x l) => execSynchFrame d r v x l s
  | .ok (.sendEncapsulatedCommand d r v x l) => execSendEncapsulatedCommand d r v x l s
  | .ok (.getEncapsulatedResponse d r v x l) => execGetEncapsulatedResponse d r v x l s
  | .ok (.setLineCoding d r v x l) => execSetLineCoding d r v x l s
  | .ok (.getLineCoding d r v x l) => execGetLineCoding d r v x l s
  | .ok (.setControlLineState d r v x l) => execSetControlLineState d r v x l s
  | _ => .next (raiseStall s)

/-- A SETUP packet: it is read and decoded, the transfer in progress is abandoned and the stall state left, and its
request is performed (40_usb_control.md R201, R202). -/
def handleSetup (s : State) : Res :=
  match memReadList .ep0out 0 8 s with
  | .error e => .fault e
  | .ok packet => dispatchSetup (decodeSetup packet) (leaveStall s)

/-- Bytes stored into the leading places of the line coding (40_usb_control.md R232). -/
def storeLineCoding (lc : Vector Byte 7) (j : Nat) : List Byte → Vector Byte 7
  | [] => lc
  | v :: vs => storeLineCoding (lc.setIfInBounds j v) (j + 1) vs

/-- The data stage of SET_LINE_CODING: at most 7 bytes are stored, and the status packet is armed
(40_usb_control.md R232). -/
def lineCodingData (s : State) : Res :=
  match memReadList .ep0out 0 (min (s.bd .ep0out).count 7) s with
  | .error e => .fault e
  | .ok vs =>
    statusIn
      { s with
        dev := { s.dev with lineCoding := storeLineCoding s.dev.lineCoding 0 vs }
        ctl := { s.ctl with lcPending := false } }

/-- A non-setup OUT transaction on endpoint 0: a data stage or a status stage (40_usb_control.md R232). -/
def handleEp0Data (s : State) : Res :=
  if s.ctl.lcPending then lineCodingData s
  else .next { s with ctl := { s.ctl with xfer := none } }

/-- Endpoint-0 OUT completion (40_usb_control.md R200, R203): the block reads the descriptor and the buffer, which it
must own, and re-arms them. -/
def handleEp0Out (s : State) : Res :=
  if (s.bd .ep0out).own = .sie then .fault (.ownership .ep0out)
  else andThen (if s.bds.ep0setup then handleSetup s else handleEp0Data s) rearmEp0out

/-- Endpoint-0 IN completion (40_usb_control.md R230). -/
def handleEp0In (s : State) : Res :=
  match s.ctl.pendingAddr with
  | some a =>
    .next { s with dev := { s.dev with addr := a }, ctl := { s.ctl with pendingAddr := none } }
  | none =>
    match s.ctl.xfer with
    | some x => continueIn x s
    | none => .next s

/-- The descriptors of endpoint 0 in a bus reset: IN stays with the block, and OUT is armed again (40_usb_control.md
R240). The block must own both (20_memory.md R107), and it does: the SIE has returned them before it posts the event,
and returns at once what is armed while the event waits (60_exceptions.md R612 item 8, assumption 9). -/
def resetEp0 (s : State) : Res :=
  if (s.bd .ep0in).own = .sie then .fault (.ownership .ep0in)
  else rearmEp0out { s with bds := { s.bds with ep0in := ⟨.sw, 0⟩ } }

/-- USB bus reset (40_usb_control.md R240). The bytes of the six buffers stay as they are: "same" in
70_reset_and_hazards.md R701, any value in 93_implementation_defined.md U2; DESIGN CHOICE (assumption 42). -/
def handleBusReset (s : State) : Res :=
  andThen (resetEp0 (leaveStall (clearEndpoints { s with dev := { s.dev with addr := 0, config := 0 } })))
    (bulkReset false)

/-- The action of one SIE event (41_usb_bulk.md R320). -/
def handleEvent (ev : SieEvent) (s : State) : Res :=
  match ev with
  | .busReset => handleBusReset s
  | .doneEp0out => handleEp0Out s
  | .doneEp0in => handleEp0In s
  | .doneBin _ => .next s
  | .doneBout _ => .next s

/-- The oldest event of the SIE's queue, if there is one, is taken from it and handled (41_usb_bulk.md R320, R321). -/
def serviceSie (s : State) : Res :=
  match s.sie.queue with
  | [] => .next s
  | ev :: rest => handleEvent ev { s with sie := { s.sie with queue := rest } }

/-- USB_POLL (41_usb_bulk.md R320): one event, then the zero-length step and the idle step. -/
def execUsbPoll (s : State) : Res :=
  andThen (serviceSie s) fun s =>
    andThen (bulkOutZeroLength s) fun s =>
      andThen (idleStep s) fun s => .next (respond .ok [] s)

end Sys2Proof.Machine
end

