-- ==== Sys2Proof/Machine/Dispatch.lean ====
section
/-! DEFINITION. The dispatch of an operation to its meaning, one arm per constructor. -/

namespace Sys2Proof.Machine

def exec (i : Instr) (s : State) : Host.Outcome State Fault Refusal :=
  match i with
  -- client operations (30_encoding.md R142)
  | .usbPoll => Sys2Proof.Machine.execUsbPoll s
  | .usbReady => Sys2Proof.Machine.execUsbReady s
  | .usbPut b => Sys2Proof.Machine.execUsbPut b s
  | .usbFlush => Sys2Proof.Machine.execUsbFlush s
  | .usbHasData => Sys2Proof.Machine.execUsbHasData s
  | .usbGet => Sys2Proof.Machine.execUsbGet s
  | .canReset => Sys2Proof.Machine.execCanReset s
  | .canReadReg a => Sys2Proof.Machine.execCanReadReg a s
  | .canWriteReg a d => Sys2Proof.Machine.execCanWriteReg a d s
  | .canBitModify a m d => Sys2Proof.Machine.execCanBitModify a m d s
  | .canReadStatus => Sys2Proof.Machine.execCanReadStatus s
  | .canInit => Sys2Proof.Machine.execCanInit s
  | .canSetTiming cnf1 cnf2 cnf3 => Sys2Proof.Machine.execCanSetTiming cnf1 cnf2 cnf3 s
  | .canSetPreset k => Sys2Proof.Machine.execCanSetPreset k s
  | .canSetMask m0 m1 m2 m3 => Sys2Proof.Machine.execCanSetMask m0 m1 m2 m3 s
  | .canSetCode c0 c1 c2 c3 => Sys2Proof.Machine.execCanSetCode c0 c1 c2 c3 s
  | .canReadErrflags => Sys2Proof.Machine.execCanReadErrflags s
  | .canSend flags id dlc data => Sys2Proof.Machine.execCanSend flags id dlc data s
  | .canReceive => Sys2Proof.Machine.execCanReceive s
  -- standard USB requests (30_encoding.md R152)
  | .getStatus d r v x l => Sys2Proof.Machine.execGetStatus d r v x l s
  | .clearFeature d r v x l => Sys2Proof.Machine.execClearFeature d r v x l s
  | .setFeature d r v x l => Sys2Proof.Machine.execSetFeature d r v x l s
  | .setAddress d r v x l => Sys2Proof.Machine.execSetAddress d r v x l s
  | .getDescriptorDevice d r n x l => Sys2Proof.Machine.execGetDescriptorDevice d r n x l s
  | .getDescriptorConfiguration d r n x l => Sys2Proof.Machine.execGetDescriptorConfiguration d r n x l s
  | .getDescriptorString d r n x l => Sys2Proof.Machine.execGetDescriptorString d r n x l s
  | .getDescriptorOther d r t n x l => Sys2Proof.Machine.execGetDescriptorOther d r t n x l s
  | .getConfiguration d r v x l => Sys2Proof.Machine.execGetConfiguration d r v x l s
  | .setConfiguration d r v x l => Sys2Proof.Machine.execSetConfiguration d r v x l s
  | .getInterface d r v x l => Sys2Proof.Machine.execGetInterface d r v x l s
  | .setInterface d r v x l => Sys2Proof.Machine.execSetInterface d r v x l s
  | .synchFrame d r v x l => Sys2Proof.Machine.execSynchFrame d r v x l s
  -- class requests of the virtual serial port (30_encoding.md R153)
  | .sendEncapsulatedCommand d r v x l => Sys2Proof.Machine.execSendEncapsulatedCommand d r v x l s
  | .getEncapsulatedResponse d r v x l => Sys2Proof.Machine.execGetEncapsulatedResponse d r v x l s
  | .setLineCoding d r v x l => Sys2Proof.Machine.execSetLineCoding d r v x l s
  | .getLineCoding d r v x l => Sys2Proof.Machine.execGetLineCoding d r v x l s
  | .setControlLineState d r v x l => Sys2Proof.Machine.execSetControlLineState d r v x l s
  -- serial-bus commands (30_encoding.md R161)
  | .spiReset => Sys2Proof.Machine.execSpiReset s
  | .spiRead a => Sys2Proof.Machine.execSpiRead a s
  | .spiWrite a ds => Sys2Proof.Machine.execSpiWrite a ds s
  | .spiBitModify a m d => Sys2Proof.Machine.execSpiBitModify a m d s
  | .spiReadStatus => Sys2Proof.Machine.execSpiReadStatus s
  | .spiLoadTx slot ds => Sys2Proof.Machine.execSpiLoadTx slot ds s
  | .spiReadRx buffer => Sys2Proof.Machine.execSpiReadRx buffer s

end Sys2Proof.Machine
end

