-- ==== Sys2Proof/Machine/Sie.lean ====
section
/-! DEFINITION. The SIE: an agent that meets 60_exceptions.md R612, with the USB host's tokens as its inputs. -/

namespace Sys2Proof.Machine

/-- The SIE's answer to the token. -/
def State.answered (s : State) (a : Answer) : State := { s with answer := some a }

/-- The SIE posts an event: it goes to the end of the queue, in the order of occurrence (60_exceptions.md R612
item 1). -/
def post (ev : SieEvent) (s : State) : State := { s with sie := { s.sie with queue := s.sie.queue ++ [ev] } }

/-- The SIE sets the toggles it keeps. -/
def State.setToggles (s : State) (t : Toggles) : State := { s with sie := { s.sie with toggles := t } }

/-- The SIE returns a buffer to the block (60_exceptions.md R612 item 2). -/
def giveBack (b : Buf) (s : State) : State := s.setBd b { s.bd b with own := .sw }

/-- An OUT buffer: the host sends into it. -/
def Buf.isOut : Buf → Bool
  | .ep0out => true
  | .ep0in => false
  | .bin _ => false
  | .bout _ => true

/-- A descriptor that the SIE gives up, if it is the SIE's: an OUT buffer has received nothing, and its count says so
(10_state.md R41). A descriptor of the block's is not changed (60_exceptions.md R612 item 2). -/
def Bd.givenUp (d : Bd) (isOut : Bool) : Bd := if d.own = .sie then ⟨.sw, if isOut then 0 else d.count⟩ else d

/-- The SIE gives up a buffer, if it owns it. -/
def giveUp (b : Buf) (s : State) : State := s.setBd b ((s.bd b).givenUp b.isOut)

/-- The SIE writes received bytes and their count, and then returns the buffer (20_memory.md R111 (2)). -/
def deliver (b : Buf) (data : List Byte) (s : State) : State :=
  { s with mem := s.mem.writeList b.base data }.setBd b ⟨.sw, data.length⟩

/-- The bytes that the block armed in an IN buffer. -/
def State.armedBytes (s : State) (b : Buf) : List Byte := s.mem.readList b.base (s.bd b).count

/-- Every descriptor's owner is the block (60_exceptions.md R612 item 8). -/
def giveUpAll (s : State) : State :=
  giveUp (.bout 1) (giveUp (.bout 0) (giveUp (.bin 1) (giveUp (.bin 0) (giveUp .ep0in (giveUp .ep0out s)))))

/-- USB bus reset: every descriptor's owner is the block again, and then the event is posted (60_exceptions.md R612
item 8). The SIE changes no byte of a buffer: DESIGN CHOICE (assumption 42). -/
def sieBusReset (s : State) : State := (post .busReset (giveUpAll s)).answered .silent

/-- A USB bus reset has occurred and the block has not handled it. -/
def State.resetWaits (s : State) : Bool := s.sie.queue.contains .busReset

/-- A SETUP has been accepted and the block has not handled it (60_exceptions.md R612 item 4). -/
def State.setupWaits (s : State) : Bool := (s.bd .ep0out).own == .sw && s.bds.ep0setup

/-- A SETUP packet is always accepted: it goes into the endpoint-0 OUT buffer, whether or not that is armed, over what the
buffer holds; an armed endpoint-0 IN packet is taken back, the packets after it begin at DATA1, and its event is posted
(60_exceptions.md R612 items 1, 3 and 6). -/
def sieSetup (packet : Vector Byte 8) (s : State) : State :=
  let s := giveUp .ep0in (deliver .ep0out packet.toList s)
  let s := { s with bds := { s.bds with ep0setup := true } }
  (post .doneEp0out (s.setToggles { s.sie.toggles with ep0in := true, ep0out := true })).answered .ack

/-- On `Done(ep0out)` the endpoint-0 OUT buffer is the block's (40_usb_control.md R200). Where the block, handling an
earlier event, has re-armed the buffer over a SETUP packet whose own event still waits, the packet is in it yet: the SIE
returns the buffer with it. DESIGN CHOICE (assumption 8). -/
def redeliver (s : State) : State :=
  if s.sie.queue.contains .doneEp0out && (s.bd .ep0out).own == .sie then
    { s with bds := { s.bds with ep0out := ⟨.sw, 8⟩, ep0setup := true } }
  else s

/-- While a bus reset waits for the block, every buffer armed meanwhile goes back to it (60_exceptions.md R612 item 8);
while a SETUP waits, so does an armed endpoint-0 IN packet (item 3). DESIGN CHOICE (assumption 8). -/
def sieTakeBack (s : State) : State :=
  let s := if s.resetWaits then giveUpAll s else s
  if s.setupWaits then giveUp .ep0in s else s

/-- What the SIE does after every input: it returns what the events that wait are about, and takes back what it must
(assumption 8). -/
def sieSettle (s : State) : State := sieTakeBack (redeliver s)

/-- The protocol stall is answered (60_exceptions.md R612 item 4). -/
def State.stallsEp0 (s : State) : Bool := s.stallOut0 && (s.bd .ep0out).own == .sie

/-- An IN token on endpoint 0 (60_exceptions.md R612 items 4, 5 and 10). -/
def sieIn0 (s : State) : State :=
  if s.setupWaits then s.answered .nak
  else if s.stallsEp0 then s.answered .stall
  else if (s.bd .ep0in).own = .sie then
    let t := s.sie.toggles
    (post .doneEp0in ((giveBack .ep0in s).setToggles { t with ep0in := !t.ep0in })).answered
      (.data t.ep0in (s.armedBytes .ep0in))
  else s.answered .nak

/-- A non-setup OUT token on endpoint 0 (60_exceptions.md R612 items 4, 5 and 10). -/
def sieOut0 (data : List Byte) (s : State) : State :=
  if s.setupWaits then s.answered .nak
  else if s.stallsEp0 then s.answered .stall
  else if (s.bd .ep0out).own = .sie then
    if data.length ≤ s.cfg.ep0Size.bytes then
      let t := s.sie.toggles
      (post .doneEp0out ((deliver .ep0out data s).setToggles { t with ep0out := !t.ep0out })).answered .ack
    else s.answered .silent
  else s.answered .nak

/-- An IN token on the bulk-IN endpoint (60_exceptions.md R612 items 4, 5 and 7). -/
def sieBulkIn (s : State) : State :=
  let k := s.sie.nextIn
  if s.stallOut .in_ then s.answered .stall
  else if (s.bd (.bin k)).own = .sie then
    let t := s.sie.toggles
    let s' := (giveBack (.bin k) s).setToggles { t with in_ := !t.in_ }
    (post (.doneBin k) { s' with sie := { s'.sie with nextIn := 1 - k } }).answered
      (.data t.in_ (s.armedBytes (.bin k)))
  else s.answered .nak

/-- An OUT token on the bulk-OUT endpoint (60_exceptions.md R612 items 4, 5 and 7). -/
def sieBulkOut (data : List Byte) (s : State) : State :=
  let k := s.sie.nextOut
  if s.stallOut .out then s.answered .stall
  else if (s.bd (.bout k)).own = .sie then
    if data.length ≤ s.cfg.bulkSize.val then
      let t := s.sie.toggles
      let s' := (deliver (.bout k) data s).setToggles { t with out := !t.out }
      (post (.doneBout k) { s' with sie := { s'.sie with nextOut := 1 - k } }).answered .ack
    else s.answered .silent
  else s.answered .nak

/-- An IN token on the notification endpoint, which is never armed: every one gets NAK (10_state.md R50,
92_eei_decisions.md D11, 60_exceptions.md R612 item 5: "always"). Where the endpoint is halted R612 item 4, which speaks of
every endpoint, says STALL: the rules that name this endpoint are followed, DESIGN CHOICE (assumption 38). -/
def sieNotify (s : State) : State := s.answered .nak

/-- The endpoint address of an IN token: the number with bit 7 set. -/
def inAddress (ep : BitVec 4) : Byte := 0x80 ||| ep.zeroExtend 8

/-- An IN token for this device. -/
def sieInToken (ep : BitVec 4) (s : State) : State :=
  if ep = 0 then sieIn0 s
  else if inAddress ep = s.cfg.epIn then sieBulkIn s
  else if inAddress ep = s.cfg.epNotify then sieNotify s
  else s.answered .silent

/-- An OUT token for this device. -/
def sieOutToken (ep : BitVec 4) (data : List Byte) (s : State) : State :=
  if ep = 0 then sieOut0 data s
  else if ep.zeroExtend 8 = s.cfg.epOut then sieBulkOut data s
  else s.answered .silent

/-- What the SIE does with a token of the USB host. It answers at the address that the block drives to it
(60_exceptions.md R612 item 9). -/
def sieToken (t : Token) (s : State) : State :=
  match t with
  | .busReset => sieBusReset s
  | .setup addr packet => if addr = s.addrOut then sieSetup packet s else s.answered .silent
  | .inToken addr ep => if addr = s.addrOut then sieInToken ep s else s.answered .silent
  | .outToken addr ep data => if addr = s.addrOut then sieOutToken ep data s else s.answered .silent

end Sys2Proof.Machine
end

