-- ==== Sys2Proof/Machine/Fetch.lean ====
section
/-! DEFINITION. Where a step takes what it does: the next input, the bytes of a request or transaction, and the place of
a SETUP packet. -/

namespace Sys2Proof.Machine

/-- The next input is taken, and what the last request and token put out is gone. -/
def State.accept (s : State) (rest : List Input) : State :=
  { s with inputs := rest, response := none, txns := [], pulses := [], answer := none }

/-- A client request is decoded and performed as one step (30_encoding.md R141, R145, R147). -/
def stepRequest (bytes : List Byte) (s : State) : Res :=
  match decodeClient bytes with
  | .ok i => exec i s
  | .error (.illegalOp _) => .next (respond .illegal [] s)
  | .error _ => .refused .badFraming

/-- The transaction on the bench is decoded and performed (assumption 3). -/
def stepBench (bytes : List Byte) (s : State) : Res :=
  match decodeSerial s.cfg.chip bytes with
  | .ok i => exec i s
  | .error _ => .refused .noSuchTransaction

/-- One input. -/
def stepInput (i : Input) (s : State) : Res :=
  match i with
  | .request bytes => stepRequest bytes s
  | .token t => .next (sieToken t s)
  | .outside o => .next (outsideAct o s)
  | .tick => .next (tick s)

/-- What is done next: a transaction on the bench, else the next input; with neither the block is idle
(30_encoding.md R140). After it the SIE does what it can (`sieSettle`). -/
def nextInput (s : State) : Res :=
  match s.bench, s.inputs with
  | some bytes, _ => andThen (stepBench bytes { s.accept s.inputs with bench := none }) fun t => .next (sieSettle t)
  | none, [] => .next s
  | none, i :: rest => andThen (stepInput i (s.accept rest)) fun t => .next (sieSettle t)

/-- A SETUP packet stands in the endpoint-0 OUT buffer as the SIE leaves it there, its event is the oldest of the queue,
and the client's next request is USB_POLL, the byte 01. -/
def State.withSetupPacket (s : State) (packet : List Byte) : State :=
  { s with
    mem := s.mem.writeList Buf.ep0out.base packet
    bds := { s.bds with ep0out := ⟨.sw, 8⟩, ep0setup := true, ep0in := { s.bds.ep0in with own := .sw } }
    sie := { s.sie with queue := .doneEp0out :: s.sie.queue }
    inputs := .request [0x01] :: s.inputs
    bench := none }

/-- The bytes of an operation of a class stand where the next step fetches that class. -/
def State.withOperation (s : State) (c : OpClass) (bytes : List Byte) : State :=
  match c with
  | .client => { s with inputs := .request bytes :: s.inputs, bench := none }
  | .serial => { s with bench := some bytes }
  | .setup => s.withSetupPacket bytes

end Sys2Proof.Machine
end

