-- ==== Sys2Proof/Machine/Step.lean ====
section
/-! DEFINITION. One step, and the words a test stores where the step fetches. -/

namespace Sys2Proof.Machine

/-- One step of the machine: the next input (Machine/Fetch.lean). -/
def step (s : State) : Host.Outcome State Fault Refusal := nextInput s

/-- The operation that a word of the opcode table stands for, stored where the next step fetches it. -/
def State.withFetchWord (s : State) (nbits w : Nat) : State :=
  s.withOperation (tableWordBytes nbits w).1 (tableWordBytes nbits w).2

end Sys2Proof.Machine
end

