-- ==== Sys2Proof/Safety.lean ====
section
/-! DEFINITION. What a safe state and a safe run are, in the terms that the claims use: the invariant of the machine, the
agreement of the block and the SIE on the ping-pong buffers, the bytes that wait in each direction, the order of the
pending frames, and what a part of the machine leaves alone. -/

namespace Sys2Proof.Machine

/-! ### The invariant -/

/-- What every reachable state satisfies. Each field says which rule it restates; `clock_range` is the clock agent's
duty (70_reset_and_hazards.md R741), and the others follow from the block's and the SIE's rules. -/
structure State.Inv (s : State) : Prop where
  /-- Memory has its canonical form. -/
  memory : s.mem.wf = true
  /-- Between transactions `nCS` is released and `SCK` idle (42_serial_bus.md R361). -/
  busIdle : s.serial = ⟨true, s.cfg.spiCpol⟩
  /-- `clock()` is in 0..59999 (10_state.md R72). -/
  clock : s.clock.toNat < 60000
  /-- The legal values of `dev.config` (10_state.md R34). -/
  config : s.dev.config = 0 ∨ s.dev.config = s.cfg.configValue
  /-- No count is above the buffer's size (10_state.md R41, 20_memory.md R100). -/
  count : ∀ b, (s.bd b).count ≤ b.size s.cfg
  /-- `bin.fill > 0` implies that the active bulk-IN buffer is the block's (10_state.md R45). -/
  fillOwned : 0 < s.bin.fill → (s.bd (.bin s.bin.active)).own = .sw
  /-- A full buffer is flushed at once (41_usb_bulk.md R301, R302). -/
  fill : s.bin.fill < s.cfg.bulkSize.val
  /-- `bin.idle` never exceeds the threshold (10_state.md R46, 41_usb_bulk.md R304). -/
  idle : s.bin.idle < s.cfg.idleFlushPolls.val
  /-- Only polls with unflushed bytes count (10_state.md R46). -/
  idleFill : s.bin.fill = 0 → s.bin.idle = 0
  /-- A bulk-OUT buffer that is partly read is the block's and has an unread byte (41_usb_bulk.md R311). -/
  unread : 0 < s.bout.pos → (s.bd (.bout s.bout.active)).own = .sw ∧ s.bout.pos < (s.bd (.bout s.bout.active)).count
  /-- While the device is not configured the bulk endpoints are not in use (10_state.md R34). -/
  notConfigured : s.dev.config = 0 →
    s.bin.fill = 0 ∧ s.bout.pos = 0 ∧ ∀ k, (s.bd (.bin k)).own = .sw ∧ (s.bd (.bout k)).own = .sw
  /-- A SETUP packet that has been received is the block's, and has 8 bytes (10_state.md R42). -/
  setup : s.bds.ep0setup = true → s.bd .ep0out = ⟨.sw, 8⟩
  /-- In protocol stall no transfer is in progress (40_usb_control.md R206). -/
  stalled : s.ctl.stall = true → s.ctl = idleCtl true
  /-- At most one of the three transfers is in progress (40_usb_control.md R233). -/
  oneStage : (s.ctl.pendingAddr.isSome → s.ctl.lcPending = false ∧ s.ctl.xfer = none) ∧
    (s.ctl.lcPending = true → s.ctl.xfer = none)
  /-- What an IN data stage has still to send is in its reply, of at most 65535 bytes (10_state.md R39). -/
  transfer : ∀ x, s.ctl.xfer = some x → x.off + x.rem ≤ x.data.length ∧ x.off + x.rem ≤ 65535

/-! ### Ping-pong (10_state.md R73, 60_exceptions.md R612 item 7) -/

/-- The block's active buffer and the SIE's next one agree: with both buffers in the same hands they are the same one;
otherwise the block has the active buffer and the SIE the other, which is its next. -/
def Alternates (active next : Fin 2) (own : Fin 2 → Owner) : Prop :=
  (own active = own (1 - active) → next = active) ∧
    (own active ≠ own (1 - active) → own active = .sw ∧ next = 1 - active)

/-- Both bulk endpoints alternate. -/
def State.PingPong (s : State) : Prop :=
  Alternates s.bin.active s.sie.nextIn (fun k => (s.bd (.bin k)).own) ∧
    Alternates s.bout.active s.sie.nextOut (fun k => (s.bd (.bout k)).own)

/-- Both bulk endpoints alternate, unless a USB bus reset waits for the block: the SIE has then taken back every
descriptor and the block restarts the alternation when it handles the event (60_exceptions.md R612 item 8). -/
def State.InStep (s : State) : Prop := s.resetWaits = true ∨ s.PingPong

/-! ### Endpoint 0 (20_memory.md R107, 60_exceptions.md R612) -/

/-- What the SIE and the block together keep of endpoint 0, so that no step of the block meets a buffer that the SIE
owns (20_memory.md R107) and the SIE meets none that the block owns (60_exceptions.md R612 item 2). -/
structure State.Ep0InStep (s : State) : Prop where
  /-- The OUT buffer is the SIE's, unless the block has still to handle what returned it (40_usb_control.md R203). -/
  armed : (s.bd .ep0out).own = .sw → .doneEp0out ∈ s.sie.queue ∨ .busReset ∈ s.sie.queue
  /-- On `Done(ep0out)` the OUT buffer is the block's (40_usb_control.md R200); only a SETUP completes while such an event
  waits (60_exceptions.md R612 items 3 and 5). -/
  out : .doneEp0out ∈ s.sie.queue →
    (s.bd .ep0out).own = .sw ∧ (s.bds.ep0setup = true ∨ s.sie.queue.count .doneEp0out = 1)
  /-- On `Done(ep0in)` the IN buffer is the block's (40_usb_control.md R230). -/
  in_ : .doneEp0in ∈ s.sie.queue → (s.bd .ep0in).own = .sw ∧ s.sie.queue.count .doneEp0in = 1
  /-- After a USB bus reset nothing but a SETUP completes on endpoint 0 until the block has handled it. -/
  order : s.sie.queue.Pairwise fun a b =>
    a = .busReset → b ≠ .doneEp0in ∧ (b = .doneEp0out → s.bds.ep0setup = true)
  /-- While a USB bus reset waits every buffer is the block's (60_exceptions.md R612 item 8). -/
  reset : s.resetWaits = true → ∀ b, (s.bd b).own = .sw
  /-- While a SETUP packet waits the IN buffer is the block's (60_exceptions.md R612 item 3), and nothing completes on
  endpoint 0 after it (item 4). -/
  setup : s.bds.ep0setup = true → (s.bd .ep0in).own = .sw ∧
    ∃ before after, s.sie.queue = before ++ .doneEp0out :: after ∧ .doneEp0out ∉ after ∧ .doneEp0in ∉ after
  /-- While the data stage of SET_LINE_CODING is awaited nothing is armed (40_usb_control.md R223), and no packet is on
  its way but one that a SETUP takes back. -/
  lineCoding : s.ctl.lcPending = true →
    s.bds.ep0setup = true ∨ ((s.bd .ep0in).own = .sw ∧ .doneEp0in ∉ s.sie.queue)

/-! ### The bytes that wait -/

/-- The bytes of a bulk-IN buffer that the SIE holds and has not yet sent. -/
def State.armedIn (s : State) (k : Fin 2) : List Byte :=
  if (s.bd (.bin k)).own = .sie then s.armedBytes (.bin k) else []

/-- The bytes that wait for the host on the bulk-IN endpoint, first to go first: those armed, in the SIE's order, and
those put and not yet flushed (41_usb_bulk.md R306). -/
def State.waitingIn (s : State) : List Byte :=
  s.armedIn s.sie.nextIn ++ s.armedIn (1 - s.sie.nextIn) ++
    s.mem.readList (Buf.bin s.bin.active).base s.bin.fill

/-- The bytes of a bulk-OUT buffer from an offset on, where the block holds the buffer. -/
def State.heldOut (s : State) (k : Fin 2) (off : Nat) : List Byte :=
  if (s.bd (.bout k)).own = .sw then
    s.mem.readList ((Buf.bout k).base + off) ((s.bd (.bout k)).count - off)
  else []

/-- The bytes received on the bulk-OUT endpoint and not yet read by the client, first to be read first
(41_usb_bulk.md R313). -/
def State.unreadOut (s : State) : List Byte :=
  s.heldOut s.bout.active s.bout.pos ++ s.heldOut (1 - s.bout.active) 0

/-- What the next step does first, if nothing stands on the bench: the next input. -/
def State.nextDone (s : State) : Option Input := if s.bench.isSome then none else s.inputs.head?

/-- The bytes that the next step accepts for the host: a byte put while the active buffer is free
(41_usb_bulk.md R302). -/
def State.acceptedIn (s : State) : List Byte :=
  match s.nextDone with
  | some (.request [0x03, b]) => if s.inReady then [b] else []
  | _ => []

/-- The bytes that the SIE sent to the host in the step from `s` to `t`: those of a data answer on the bulk-IN
endpoint. -/
def State.sentIn (s t : State) : List Byte :=
  match s.nextDone, t.answer with
  | some (.token (.inToken a ep)), some (.data _ bytes) =>
    if a = s.addrOut ∧ ep ≠ 0 ∧ inAddress ep = s.cfg.epIn then bytes else []
  | _, _ => []

/-- The bytes that the SIE received from the host in the step from `s` to `t`: those it acknowledged on the bulk-OUT
endpoint. -/
def State.receivedOut (s t : State) : List Byte :=
  match s.nextDone, t.answer with
  | some (.token (.outToken a ep data)), some .ack =>
    if a = s.addrOut ∧ ep ≠ 0 ∧ ep.zeroExtend 8 = s.cfg.epOut then data else []
  | _, _ => []

/-- The bytes that the client got in the step from `s` to `t`: the result of a USB_GET with an unread byte to get
(41_usb_bulk.md R311). -/
def State.gotOut (s t : State) : List Byte :=
  match s.nextDone, t.response with
  | some (.request [0x06]), some r => if s.outHasData then r.result else []
  | _, _ => []

/-- The step from `s` to `t` restarts neither bulk queue: no bus reset waits or comes, and no `BulkReset` is performed
(41_usb_bulk.md R300). -/
def State.keepsQueues (s t : State) : Prop :=
  s.resetWaits = false ∧ s.nextDone ≠ some (.token .busReset) ∧ .ppReset ∉ t.pulses

/-! ### Pending frames (44_can_tx.md R459) -/

/-- Invariant I of 44_can_tx.md R459: the busy slots, listed from the oldest accepted frame to the newest, have strictly
decreasing ranks, and the priority that the block remembers of each is the chip's. A frame on the bus is the oldest
(R460). -/
structure State.SendsInOrder (s : State) (order : List (Fin 3)) : Prop where
  nodup : order.Nodup
  pending : ∀ x, x ∈ order ↔ s.chip.txreq s.cfg.chip x = true
  recorded : ∀ x ∈ order, (s.can.slotPrio[x]).val = s.chip.txp s.cfg.chip x
  ranked : order.Pairwise fun x y => s.chip.rank s.cfg.chip y < s.chip.rank s.cfg.chip x
  sending : ∀ f, s.chip.onBus = some f → order.head? = some f.slot

/-- The slots of the frames that the chip has sent, first sent first. -/
def Chip.sentSlots (c : Chip) : List (Fin 3) := c.sent.map TxFrame.slot

/-- A raw operation of the client that writes a transmit control register: the ordering guarantee is void after it
(70_reset_and_hazards.md R728). -/
def WritesTransmitControl (m : ChipTable) (i : Instr) : Prop :=
  ∃ a ∈ m.txbctrl.toList, (∃ d, i = .canWriteReg a d) ∨ ∃ k d, i = .canBitModify a k d

/-! ### Frames and registers, in their own bits -/

/-- The bytes of a frame operand of CAN_SEND as 30_encoding.md R143 and 44_can_tx.md R455, R457 give them: the identifier
image, the DLC byte, the payload. -/
def operandBytes (flags : Byte) (id : BitVec 32) (dlc : Byte) (data : Vector Byte 8) : List Byte :=
  (if flags.getLsbD 0 then
    [id.extractLsb' 21 8, id.extractLsb' 18 3 ++ (0b010 : BitVec 3) ++ id.extractLsb' 16 2, id.extractLsb' 8 8,
      id.extractLsb' 0 8]
  else [id.extractLsb' 3 8, id.extractLsb' 0 3 ++ (0b00000 : BitVec 5), 0x00, 0x00]) ++
    [(if flags.getLsbD 1 then 0x40 else 0x00) ||| dlc] ++
    data.toList.take (if flags.getLsbD 1 then 0 else min dlc.toNat 8)

/-- The write law of the reference chip (42_serial_bus.md R354, R357): the bytes went to consecutive registers, each of
which took the bits that a write changes, unless it is a configuration register and the chip is not in configuration
mode (60_exceptions.md R613 item 5); every other register is as it was. -/
structure RegistersWritten (c d : Chip) (a : Nat) (bytes : List Byte) : Prop where
  taken : ∀ (i : Nat) (hi : i < bytes.length), a + i < 128 →
    (configOnly (a + i) = false ∨ c.inConfigMode mcp2515 = true) → ∀ j < 8,
      (d.cell (a + i)).getLsbD j =
        if (writableBits (a + i)).getLsbD j then bytes[i].getLsbD j else (c.cell (a + i)).getLsbD j
  ignored : ∀ i < bytes.length, configOnly (a + i) = true → c.inConfigMode mcp2515 = false →
    d.cell (a + i) = c.cell (a + i)
  others : ∀ b, b < a ∨ a + bytes.length ≤ b → d.cell b = c.cell b

/-- A frame stands in a receive buffer of the reference chip, which is full: its header decodes to the frame
(45_can_rx.md R504) and its payload bytes are the frame's. Where they stand is the chip family's (assumption 39). -/
structure FrameReceived (d : Chip) (b : Fin 2) (f : CanFrame) : Prop where
  full : d.rxFull mcp2515 b = true
  header : d.rxHeader mcp2515 b =
    ⟨f.ext, f.rtr, if f.ext then f.id.zeroExtend 32 else (f.id.extractLsb' 0 11).zeroExtend 32, f.dlc⟩
  payload : f.rtr = false → ∀ (j : Nat) (hj : j < 8), j < f.dlc.toNat → d.cell (0x66 + 0x10 * b.val + j) = f.data[j]

/-- The reference chip has recorded an error: EFLG is as given, and with CANINTE.ERRIE set CANINTF.ERRIF is raised and INT
asserted (60_exceptions.md R609); no other bit of CANINTF has changed, and no frame is sent or leaves the bus. -/
structure ErrorRecorded (c d : Chip) (eflg : Byte) : Prop where
  eflg : d.reg 0x2D = eflg
  errif : d.reg 0x2C = if (c.reg 0x2B).getLsbD 5 then c.reg 0x2C ||| 0x20 else c.reg 0x2C
  int : (c.reg 0x2B).getLsbD 5 = true → d.errPin mcp2515 = true
  onBus : d.onBus = c.onBus
  sent : d.sent = c.sent

/-- The reference chip is in configuration mode and not asked to leave it, with no frame on the bus
(70_reset_and_hazards.md R705). -/
structure Chip.Closed (c : Chip) : Prop where
  mode : c.inConfigMode mcp2515 = true
  request : (c.reg 0x0F).extractLsb' 5 3 = 4
  onBus : c.onBus = none

/-- One receive buffer of the reference chip is as it was. Where its bytes stand is the chip family's (assumption 39). -/
def SameBuffer (c d : Chip) (b : Fin 2) : Prop :=
  d.rxFull mcp2515 b = c.rxFull mcp2515 b ∧ ∀ j < 13, d.cell (0x61 + 0x10 * b.val + j) = c.cell (0x61 + 0x10 * b.val + j)

/-! ### What a part of the machine leaves alone -/

/-- The USB function and its ports are as they were: of the ports, the response alone may differ. -/
structure SameUsb (s t : State) : Prop where
  cfg : t.cfg = s.cfg
  dev : t.dev = s.dev
  ctl : t.ctl = s.ctl
  bds : t.bds = s.bds
  byte : ∀ a, t.mem.read a = s.mem.read a
  bin : t.bin = s.bin
  bout : t.bout = s.bout
  sie : t.sie = s.sie
  pulses : t.pulses = s.pulses
  answer : t.answer = s.answer
  inputs : t.inputs = s.inputs
  bench : t.bench = s.bench

/-- The CAN driver, the serial bus, the chip, its pins and the clock are as they were. -/
structure SameCan (s t : State) : Prop where
  cfg : t.cfg = s.cfg
  can : t.can = s.can
  serial : t.serial = s.serial
  chip : t.chip = s.chip
  pins : t.pins = s.pins
  clock : t.clock = s.clock
  during : t.during = s.during
  txns : t.txns = s.txns
  answer : t.answer = s.answer
  inputs : t.inputs = s.inputs
  bench : t.bench = s.bench

/-- The parts of the block that only USB control requests write are as they were (10_state.md R32, R37 to R42), and the
SIE's events. -/
structure SameControl (s t : State) : Prop where
  dev : t.dev = s.dev
  ctl : t.ctl = s.ctl
  ep0out : t.bd .ep0out = s.bd .ep0out
  ep0setup : t.bds.ep0setup = s.bds.ep0setup
  ep0in : t.bd .ep0in = s.bd .ep0in
  queue : t.sie.queue = s.sie.queue
  pulses : t.pulses = s.pulses

/-- The operations of the USB function: the bulk and poll operations of the client, and the USB control requests. The
others reach the CAN controller chip. -/
def usesUsb : Instr → Bool
  | .usbPoll | .usbReady | .usbPut _ | .usbFlush | .usbHasData | .usbGet => true
  | .getStatus _ _ _ _ _ | .clearFeature _ _ _ _ _ | .setFeature _ _ _ _ _ | .setAddress _ _ _ _ _ => true
  | .getDescriptorDevice _ _ _ _ _ | .getDescriptorConfiguration _ _ _ _ _ => true
  | .getDescriptorString _ _ _ _ _ | .getDescriptorOther _ _ _ _ _ _ => true
  | .getConfiguration _ _ _ _ _ | .setConfiguration _ _ _ _ _ => true
  | .getInterface _ _ _ _ _ | .setInterface _ _ _ _ _ | .synchFrame _ _ _ _ _ => true
  | .sendEncapsulatedCommand _ _ _ _ _ | .getEncapsulatedResponse _ _ _ _ _ => true
  | .setLineCoding _ _ _ _ _ | .getLineCoding _ _ _ _ _ | .setControlLineState _ _ _ _ _ => true
  | .canReset | .canReadReg _ | .canWriteReg _ _ | .canBitModify _ _ _ | .canReadStatus => false
  | .canInit | .canSetTiming _ _ _ | .canSetPreset _ | .canSetMask _ _ _ _ | .canSetCode _ _ _ _ => false
  | .canReadErrflags | .canSend _ _ _ _ | .canReceive => false
  | .spiReset | .spiRead _ | .spiWrite _ _ | .spiBitModify _ _ _ | .spiReadStatus => false
  | .spiLoadTx _ _ | .spiReadRx _ => false

/-- A step that took no fault and no refusal. -/
def Completes (r : Res) : Prop := ∃ t, r = .next t

/-- The bytes that the block has sent on the serial bus, transaction by transaction. -/
def State.sentOnBus (s : State) : List (List Byte) := s.txns.map SerialTxn.mosi

/-! ### The replies of endpoint 0 (40_usb_control.md R204, R205, R207) -/

/-- How many bytes of a reply of `len` bytes the host gets (40_usb_control.md R204). -/
def replyLength (len : Nat) (wLength : Half) : Nat := min wLength.toNat len

/-- How many bytes the first packet of a reply has (40_usb_control.md R205). -/
def firstPacket (cfg : Params) (len : Nat) (wLength : Half) : Nat := min cfg.ep0Size.bytes (replyLength len wLength)

/-- What `StartIn(data, wLength, subst)` leaves: the transfer with its first packet sent, the packet's bytes in the
endpoint-0 IN buffer, the buffer armed, and every other byte and every other field of the state as it was
(40_usb_control.md R204, R205, R208). -/
structure Replies (data : List Byte) (wLength : Half) (subst : Bool) (s t : State) : Prop where
  state : t = { s with
    mem := t.mem
    bds := { s.bds with ep0in := ⟨.sie, firstPacket s.cfg data.length wLength⟩ }
    ctl := { s.ctl with xfer := some {
      data := data
      off := firstPacket s.cfg data.length wLength
      rem := replyLength data.length wLength - firstPacket s.cfg data.length wLength
      subst := subst
      zlpDue := s.cfg.sendZlp && decide (replyLength data.length wLength < wLength.toNat) &&
        decide (0 < replyLength data.length wLength) &&
        decide (replyLength data.length wLength % s.cfg.ep0Size.bytes = 0) } } }
  packet : ∀ j < firstPacket s.cfg data.length wLength,
    t.byteAt .ep0in j = substByte s.cfg subst j (data.getD j 0)
  others : ∀ a, (∀ j < firstPacket s.cfg data.length wLength, a ≠ Buf.ep0in.base + j) → t.mem.read a = s.mem.read a

/-- What `StatusIn()` leaves: a zero-length packet armed in the endpoint-0 IN buffer (40_usb_control.md R207). -/
def acknowledged (s : State) : State := { s with bds := { s.bds with ep0in := ⟨.sie, 0⟩ } }

/-! ### Runs of polls (41_usb_bulk.md R305) -/

/-- `n` USB_POLL operations one after another. -/
def polls : Nat → State → Res
  | 0, s => .next s
  | n + 1, s => andThen (execUsbPoll s) (polls n)

end Sys2Proof.Machine
end

