-- ==== Sys2Proof/Certificates/Slice0/Obligations.lean ====
section
/-! DEFINITION. The statements about the model, each with the rule of the spec that it formalises. -/

open Sys2Proof Sys2Proof.Machine

/-! ### Encoding -/

/-- Decoding the encoding of any well-formed operation gives the operation, for the commands of every CAN chip whose
command bytes differ, as those of the default chip do (30_encoding.md R141 to R144, R150 to R154, R160, R161). -/
def Obligations.DecodeOfEncode : Prop :=
  mcp2515.commands.Nodup ∧
    ∀ m : ChipTable, m.commands.Nodup → ∀ i : Instr, i.wellFormed = true →
      decode m i.opClass (encode m i) = .ok i

/-- What a decoder accepts is a well-formed operation of its class, and its encoding is the bytes that were decoded; a
READ RX transaction may have up to 8 more dummies than the encoder writes (30_encoding.md R141, R150, R161). -/
def Obligations.EncodeOfDecode : Prop :=
  ∀ (m : ChipTable) (c : OpClass) (bytes : List Byte) (i : Instr), decode m c bytes = .ok i →
    i.wellFormed = true ∧ i.opClass = c ∧
      (encode m i = bytes ∨
        ∃ b p, p ≤ 8 ∧ i = .spiReadRx b ∧ bytes = encode m i ++ List.replicate p 0x00)

/-- Words written out from the encoding tables, one or more of each family. -/
def Obligations.WordsOfTheTablesDecode : Prop :=
  decodeClient [0x01] = .ok .usbPoll ∧
  decodeClient [0x03, 0x41] = .ok (.usbPut 0x41) ∧
  decodeClient [0x13, 0x2C, 0x20, 0x00] = .ok (.canBitModify 0x2C 0x20 0x00) ∧
  decodeClient [0x21, 0x03, 0xB6, 0x04] = .ok (.canSetTiming 0x03 0xB6 0x04) ∧
  decodeClient [0x30, 0x01, 0x12, 0x34, 0x56, 0x78, 0x02, 0xAB, 0xCD, 0x00, 0x00, 0x00, 0x00, 0x00, 0x00] =
    .ok (.canSend 0x01 0x12345678 0x02 #v[0xAB, 0xCD, 0x00, 0x00, 0x00, 0x00, 0x00, 0x00]) ∧
  decodeSetup [0x80, 0x06, 0x00, 0x01, 0x00, 0x00, 0x40, 0x00] = .ok (.getDescriptorDevice 1 0 0x00 0x0000 0x0040) ∧
  decodeSetup [0x02, 0x03, 0x00, 0x00, 0x82, 0x00, 0x00, 0x00] = .ok (.setFeature 0 2 0x0000 0x0082 0x0000) ∧
  decodeSetup [0x21, 0x20, 0x00, 0x00, 0x00, 0x00, 0x07, 0x00] = .ok (.setLineCoding 0 1 0x0000 0x0000 0x0007) ∧
  decodeSerial mcp2515 [0x44, 0x24, 0x60, 0x00, 0x00, 0x02, 0xAB, 0xCD] =
    .ok (.spiLoadTx 2 [0x24, 0x60, 0x00, 0x00, 0x02, 0xAB, 0xCD]) ∧
  decodeSerial mcp2515 [0x94, 0x00, 0x00, 0x00, 0x00, 0x00] = .ok (.spiReadRx 1)

/-- A request whose first byte is no op code is answered ILLEGAL and changes nothing else, and the next input is next
(60_exceptions.md R605). The SIE settles after it, as after every input, which changes nothing while it and the block
keep endpoint 0 in step; how it settles is the model's choice (assumption 8). -/
def Obligations.UnknownOpCodeIsIllegal : Prop :=
  ∀ (op : Byte) (operands : List Byte) (rest : List Input) (s : State),
    op.toNat ∉ [0x01, 0x02, 0x03, 0x04, 0x05, 0x06, 0x10, 0x11, 0x12, 0x13, 0x14, 0x20, 0x21, 0x22, 0x23, 0x24, 0x25,
      0x30, 0x31] →
    s.bench = none → s.inputs = .request (op :: operands) :: rest →
    let t := { s with inputs := rest, response := some ⟨.illegal, []⟩, txns := [], pulses := [], answer := none }
    step s = .next (sieSettle t) ∧ (s.Ep0InStep → step s = .next t)

/-- A SETUP packet of a vendor or reserved type, or with a code outside its type's table, is taken by no request rule:
its handling is the protocol stall (30_encoding.md R155, R156). -/
def Obligations.UnknownRequestStalls : Prop :=
  ∀ (s : State), (s.bd .ep0out).own = .sw →
    (2 ≤ (bmType (s.byteAt .ep0out 0)).toNat ∨
      (bmType (s.byteAt .ep0out 0) = 0 ∧
        (s.byteAt .ep0out 1).toNat ∉ [0x00, 0x01, 0x03, 0x05, 0x06, 0x08, 0x09, 0x0A, 0x0B, 0x0C]) ∨
      (bmType (s.byteAt .ep0out 0) = 1 ∧ (s.byteAt .ep0out 1).toNat ∉ [0x00, 0x01, 0x20, 0x21, 0x22])) →
    handleSetup s = .next { s with ctl := { pendingAddr := none, lcPending := false, xfer := none, stall := true } }

/-! ### The step -/

/-- A step takes the next input: a client request is decoded and its meaning is run; a token, what happens outside and
the clock's advance are done by their agents; with no input the block is idle (30_encoding.md R140, R141, R147). The
model's choices: a serial transaction that State.withFetchWord has placed is decoded and run by itself (assumption 3),
and after every input the SIE settles (assumption 8). -/
def Obligations.StepRunsTheDecodedOperation : Prop :=
  ∀ s : State,
    (s.bench = none →
      (∀ bytes rest i, s.inputs = .request bytes :: rest → decodeClient bytes = .ok i →
        step s = andThen (exec i { s with inputs := rest, response := none, txns := [], pulses := [], answer := none })
          fun t => .next (sieSettle t)) ∧
      (∀ t rest, s.inputs = .token t :: rest → step s = .next (sieSettle (sieToken t (s.accept rest)))) ∧
      (∀ o rest, s.inputs = .outside o :: rest → step s = .next (sieSettle (outsideAct o (s.accept rest)))) ∧
      (∀ rest, s.inputs = .tick :: rest → step s = .next (sieSettle { s with
        inputs := rest, response := none, txns := [], pulses := [], answer := none
        clock := if s.clock = 59999 then 0 else s.clock + 1 })) ∧
      (s.inputs = [] → step s = .next s)) ∧
    (∀ bytes i, s.bench = some bytes → decodeSerial s.cfg.chip bytes = .ok i →
      step s = andThen (exec i { s with bench := none, response := none, txns := [], pulses := [], answer := none })
        fun t => .next (sieSettle t))

/-- A poll that takes a received SETUP packet runs the request that the packet decodes to, on the state that the SETUP
prologue leaves, re-arms endpoint 0 OUT, and then does the zero-length and the idle steps
(40_usb_control.md R200 to R203, 41_usb_bulk.md R320). -/
def Obligations.PollRunsTheDecodedRequest : Prop :=
  ∀ (s : State) (q : List SieEvent) (i : Instr), s.sie.queue = .doneEp0out :: q → s.bd .ep0out = ⟨.sw, 8⟩ →
    s.bds.ep0setup = true → decodeSetup (s.mem.readList Buf.ep0out.base 8) = .ok i →
    exec .usbPoll s =
      andThen
        (exec i { s with
          sie := { s.sie with queue := q }
          ctl := { pendingAddr := none, lcPending := false, xfer := none, stall := false } })
        fun t => andThen (rearmEp0out t) fun t =>
          andThen (bulkOutZeroLength t) fun t => andThen (idleStep t) fun t => .next (respond .ok [] t)

/-! ### Reset -/

/-- The block's state after power-on reset, for every value of the parameters (70_reset_and_hazards.md R701), the lines
of the serial bus idle (42_serial_bus.md R361), and nothing to do. -/
def Obligations.ResetValues : Prop :=
  ∀ cfg : Params, let s := State.resetWith cfg
    s.cfg = cfg ∧ s.dev.addr = 0 ∧ s.dev.config = 0 ∧ (∀ e, s.dev.halt.get e = false) ∧
    s.dev.lineCoding = cfg.lineCodingReset ∧ s.ctl.pendingAddr = none ∧ s.ctl.lcPending = false ∧
    s.ctl.xfer = none ∧ s.ctl.stall = false ∧ s.bd .ep0out = ⟨.sie, cfg.ep0Size.bytes⟩ ∧ s.bds.ep0setup = false ∧
    s.bd .ep0in = ⟨.sw, 0⟩ ∧ (∀ k, s.bd (.bin k) = ⟨.sw, 0⟩) ∧ (∀ k, s.bd (.bout k) = ⟨.sw, 0⟩) ∧
    s.bin = ⟨0, 0, 0⟩ ∧ s.bout = ⟨0, 0⟩ ∧ s.can.txprio = 3 ∧ s.can.slotPrio = #v[0, 0, 0] ∧
    s.can.rxLast = cfg.rxLastReset ∧ s.can.selfTestOk = false ∧ s.sie.queue = [] ∧
    s.serial.released = true ∧ s.serial.sck = cfg.spiCpol ∧ s.txns = [] ∧ s.pulses = [] ∧ s.inputs = [] ∧ s.bench = none

/-- The invariants of the model hold right after reset: those of the USB function and of the machine whatever the
parameters, and that no frame is pending with the default chip, whose registers at power-on are the model's choice
(assumption 11). What the SIE keeps of endpoint 0 is the model's choice (assumption 8). -/
def Obligations.InvariantsHoldAtReset : Prop :=
  ∀ cfg : Params, (State.resetWith cfg).Inv ∧ (State.resetWith cfg).InStep ∧ (State.resetWith cfg).Ep0InStep ∧
    (cfg.chip = mcp2515 → (State.resetWith cfg).SendsInOrder [])

/-! ### Invariants that every step keeps -/

/-- From every state that satisfies the machine's invariant, a step leads to one that does, with the same parameters
(00_scope.md R7, R8). -/
def Obligations.StepKeepsTheInvariant : Prop :=
  ∀ s t : State, s.Inv → step s = .next t → t.Inv ∧ t.cfg = s.cfg

/-- From every state in which the block and the SIE alternate the bulk buffers together, a step leads to one in which
they do (10_state.md R73, 60_exceptions.md R612). -/
def Obligations.StepKeepsTheAlternation : Prop :=
  ∀ s t : State, s.Inv → s.InStep → step s = .next t → t.InStep

/-- No step of the machine meets a buffer that the SIE owns: from every state in which the block and the SIE keep
endpoint 0 in step, a step raises no fault, and it leads to a state in which they do (20_memory.md R107). How the SIE
keeps in step is the model's choice (assumption 8). -/
def Obligations.NoStepFaults : Prop :=
  ∀ s : State, s.Inv → s.Ep0InStep →
    (∀ e, step s ≠ .fault e) ∧ ∀ t, step s = .next t → t.Ep0InStep

/-- The device address changes only to a pending address or, in a USB bus reset, to 0 (10_state.md R33). -/
def Obligations.AddressChangesOnlyAsPending : Prop :=
  ∀ s t : State, step s = .next t →
    t.dev.addr = s.dev.addr ∨
      (∃ q, s.sie.queue = .doneEp0in :: q ∧ s.ctl.pendingAddr = some t.dev.addr) ∨
      (∃ q, s.sie.queue = .busReset :: q ∧ t.dev.addr = 0)

/-- The protocol stall is left only by a poll that takes a SETUP packet or a USB bus reset (60_exceptions.md R602). -/
def Obligations.StallIsLeftOnlyBySetupOrBusReset : Prop :=
  ∀ s t : State, step s = .next t → s.ctl.stall = true → t.ctl.stall = false →
    ∃ rest q, s.bench = none ∧ s.inputs = .request [0x01] :: rest ∧
      (s.sie.queue = .busReset :: q ∨ (s.sie.queue = .doneEp0out :: q ∧ s.bds.ep0setup = true))

/-! ### Frames: what a family leaves alone -/

/-- What an operation of the USB function leaves alone: the CAN driver, the serial bus, the chip, its pins, the clock
(70_reset_and_hazards.md R703). -/
def Obligations.UsbOperationsLeaveCanAlone : Prop :=
  ∀ (i : Instr) (s t : State), usesUsb i = true → exec i s = .next t → SameCan s t

/-- What an operation over the serial bus leaves alone: everything of the USB function, every byte of every buffer
included (70_reset_and_hazards.md R702). -/
def Obligations.CanOperationsLeaveUsbAlone : Prop :=
  ∀ (i : Instr) (s t : State), usesUsb i = false → exec i s = .next t → SameUsb s t

/-- No operation but a poll and the USB control requests writes the device record, the control-transfer state or the
descriptors of endpoint 0, takes an event, or issues a pulse (10_state.md R32, 20_memory.md R110). -/
def Obligations.OnlyControlWritesControlState : Prop :=
  ∀ (i : Instr) (s t : State), i.opClass ≠ .setup → i ≠ .usbPoll → exec i s = .next t → SameControl s t

/-- An operation changes no descriptor that the SIE owns and no byte of its buffer: but for SET_CONFIGURATION and the
poll, which may take the bulk buffers back (20_memory.md R107). -/
def Obligations.OperationsSpareWhatTheSieOwns : Prop :=
  ∀ (i : Instr) (s t : State) (b : Buf), s.Inv → i ≠ .usbPoll →
    (∀ d r v x l, i ≠ .setConfiguration d r v x l) → exec i s = .next t → (s.bd b).own = .sie →
    t.bd b = s.bd b ∧ ∀ off < 64, t.byteAt b off = s.byteAt b off

/-- A request that arms the endpoint-0 IN buffer while the SIE owns it stops the machine, whichever request it is; so
does a poll whose event arms that buffer, or the endpoint-0 OUT buffer while the SIE owns that one
(20_memory.md R107). The two clauses about a USB bus reset are read from R107 (assumption 9), since R240 assigns the
descriptors with no word of the owner: the reset takes the IN buffer back and arms the OUT buffer, and stops when the SIE
owns either. -/
def Obligations.ArmingAnOwnedBufferFaults : Prop :=
  ∀ s : State,
    ((s.bd .ep0in).own = .sie → ∀ (d : BitVec 1) (r : BitVec 5) (v x l : Half),
      let faults (i : Instr) : Prop := exec i s = .fault (.ownership .ep0in)
      faults (.getDescriptorDevice d r 0 x l) ∧ faults (.getDescriptorConfiguration d r 0 x l) ∧
      (∀ (i : Byte) (str : List Byte), (descriptors s.cfg).strings[i.toNat]? = some (some str) →
        faults (.getDescriptorString d r i x l)) ∧
      (endpointOf s.cfg (lowByte x) ≠ none ∨ lowByte x ∈ [0x00, 0x80] →
        faults (.getStatus d 2 v x l) ∧ faults (.setFeature d 2 0 x l) ∧ faults (.clearFeature d 2 0 x l)) ∧
      (v.toNat ≤ 127 → faults (.setAddress d r v x l)) ∧
      (lowByte v = 0 ∨ lowByte v = s.cfg.configValue → faults (.setConfiguration d r v x l)) ∧
      ((lowByte x).toNat ≤ 1 → faults (.getInterface d r v x l) ∧ faults (.setInterface d r 0 x l)) ∧
      faults (.getConfiguration d r v x l) ∧ faults (.synchFrame d r v x l) ∧
      faults (.sendEncapsulatedCommand d r v x l) ∧ faults (.getEncapsulatedResponse d r v x l) ∧
      faults (.setLineCoding d r v x 0) ∧ faults (.getLineCoding d r v x l) ∧
      faults (.setControlLineState d r v x l)) ∧
    (∀ q, (s.bd .ep0in).own = .sie → s.sie.queue = .doneEp0in :: q → s.ctl.pendingAddr = none →
      (∃ x, s.ctl.xfer = some x ∧ (0 < x.rem ∨ x.zlpDue = true)) → exec .usbPoll s = .fault (.ownership .ep0in)) ∧
    (∀ q, (s.bd .ep0in).own = .sie → (s.bd .ep0out).own = .sw → s.sie.queue = .doneEp0out :: q →
      s.bds.ep0setup = false → s.ctl.lcPending = true → exec .usbPoll s = .fault (.ownership .ep0in)) ∧
    (∀ q, (s.bd .ep0in).own = .sie → s.sie.queue = .busReset :: q → exec .usbPoll s = .fault (.ownership .ep0in)) ∧
    (∀ q, (s.bd .ep0out).own = .sie → s.sie.queue = .doneEp0out :: q →
      exec .usbPoll s = .fault (.ownership .ep0out)) ∧
    (∀ q, (s.bd .ep0in).own = .sw → (s.bd .ep0out).own = .sie → s.sie.queue = .busReset :: q →
      exec .usbPoll s = .fault (.ownership .ep0out))

/-! ### The bulk endpoints -/

/-- USB_READY and USB_HAS_DATA (41_usb_bulk.md R301, R310): the answer, and no other change. -/
def Obligations.ReadinessResults : Prop :=
  ∀ s : State,
    exec .usbReady s = .next { s with response := some ⟨.ok,
      [if s.dev.config ≠ 0 ∧ (s.bd (.bin s.bin.active)).own = .sw then 0x01 else 0x00]⟩ } ∧
    exec .usbHasData s = .next { s with response := some ⟨.ok,
      [if s.dev.config ≠ 0 ∧ (s.bd (.bout s.bout.active)).own = .sw ∧
          s.bout.pos < (s.bd (.bout s.bout.active)).count then 0x01 else 0x00]⟩ }

/-- USB_PUT (41_usb_bulk.md R302): the byte is dropped with nothing changed, or it is stored at `bin.fill` of the active
buffer and no other byte changes; a buffer that this fills is armed with its size and the other becomes active. -/
def Obligations.UsbPutEffect : Prop :=
  ∀ (s : State) (b : Byte), s.Inv →
    (s.dev.config = 0 ∨ (s.bd (.bin s.bin.active)).own = .sie →
      exec (.usbPut b) s = .next { s with response := some ⟨.ok, []⟩ }) ∧
    (s.dev.config ≠ 0 → (s.bd (.bin s.bin.active)).own = .sw →
      ∃ t, exec (.usbPut b) s = .next t ∧ t.byteAt (.bin s.bin.active) s.bin.fill = b ∧
        (∀ a, a ≠ (Buf.bin s.bin.active).base + s.bin.fill → t.mem.read a = s.mem.read a) ∧
        t = (if s.bin.fill + 1 = s.cfg.bulkSize.val then
          { s with
            mem := t.mem
            bds := s.bds.set (.bin s.bin.active) ⟨.sie, s.cfg.bulkSize.val⟩
            bin := ⟨1 - s.bin.active, 0, 0⟩
            response := some ⟨.ok, []⟩ }
        else
          { s with
            mem := t.mem
            bin := ⟨s.bin.active, s.bin.fill + 1, 0⟩
            response := some ⟨.ok, []⟩ }))

/-- USB_FLUSH (41_usb_bulk.md R303). -/
def Obligations.UsbFlushEffect : Prop :=
  ∀ s : State, s.Inv →
    (s.bin.fill = 0 → exec .usbFlush s = .next { s with
      bin := ⟨s.bin.active, 0, 0⟩
      response := some ⟨.ok, []⟩ }) ∧
    (0 < s.bin.fill → exec .usbFlush s = .next { s with
      bds := s.bds.set (.bin s.bin.active) ⟨.sie, s.bin.fill⟩
      bin := ⟨1 - s.bin.active, 0, 0⟩
      response := some ⟨.ok, []⟩ })

/-- USB_GET (41_usb_bulk.md R311): the next unread byte, the exhausted buffer handed back; without one the result byte
is a free value, of which the model counts one more (assumption 6), and nothing of the block changes. -/
def Obligations.UsbGetEffect : Prop :=
  ∀ s : State, s.Inv →
    (s.outHasData = false → ∃ v, exec .usbGet s = .next { s with
      draws := s.draws + 1
      response := some ⟨.ok, [v]⟩ }) ∧
    (s.dev.config ≠ 0 → (s.bd (.bout s.bout.active)).own = .sw → s.bout.pos < (s.bd (.bout s.bout.active)).count →
      exec .usbGet s = .next (if s.bout.pos + 1 = (s.bd (.bout s.bout.active)).count then
        { s with
          bds := s.bds.set (.bout s.bout.active) ⟨.sie, s.cfg.bulkSize.val⟩
          bout := ⟨1 - s.bout.active, 0⟩
          response := some ⟨.ok, [s.byteAt (.bout s.bout.active) s.bout.pos]⟩ }
      else
        { s with
          bout := ⟨s.bout.active, s.bout.pos + 1⟩
          response := some ⟨.ok, [s.byteAt (.bout s.bout.active) s.bout.pos]⟩ }))

/-- The bulk-IN queue: an accepted byte goes to its end, a dropped one and a flush change nothing that the host will
receive; an IN token that the SIE answers with data takes exactly those bytes from its front, and one that it answers
otherwise takes nothing; at most two buffers' bytes wait (41_usb_bulk.md R306, 60_exceptions.md R612). So over every
step that does not restart the queue (41_usb_bulk.md R300), a poll, its idle flush and every other operation included,
the bytes that waited and those accepted are those sent and those that wait then, each once and in order. -/
def Obligations.InQueueIsFirstInFirstOut : Prop :=
  ∀ s : State, s.Inv → s.PingPong →
    s.waitingIn.length ≤ 2 * s.cfg.bulkSize.val ∧
    (∀ b t, exec (.usbPut b) s = .next t →
      t.waitingIn = if s.inReady then s.waitingIn ++ [b] else s.waitingIn) ∧
    (∀ t, exec .usbFlush s = .next t → t.waitingIn = s.waitingIn) ∧
    (∀ toggle bytes, (sieBulkIn s).answer = some (.data toggle bytes) → s.waitingIn = bytes ++ (sieBulkIn s).waitingIn) ∧
    ((∀ toggle bytes, (sieBulkIn s).answer ≠ some (.data toggle bytes)) → (sieBulkIn s).waitingIn = s.waitingIn) ∧
    (s.dev.halt.in_ = false → (s.bd (.bin s.sie.nextIn)).own = .sie →
      (sieBulkIn s).answer = some (.data s.sie.toggles.in_ (s.armedBytes (.bin s.sie.nextIn)))) ∧
    (∀ t, step s = .next t → s.keepsQueues t → s.waitingIn ++ s.acceptedIn = s.sentIn t ++ t.waitingIn)

/-- The bulk-OUT queue: data that the SIE acknowledges goes to its end, a refused packet changes nothing, and USB_GET
takes the byte at its front when there is data to get (41_usb_bulk.md R313). So over every step that does not restart
the queue (41_usb_bulk.md R300), a poll that passes over an empty packet (R312) and every other operation included, the
bytes that were unread and those received are those that the client got and those unread then, each once and in
order. -/
def Obligations.OutQueueIsFirstInFirstOut : Prop :=
  ∀ s : State, s.Inv → s.PingPong →
    (∀ data, (sieBulkOut data s).answer = some .ack → (sieBulkOut data s).unreadOut = s.unreadOut ++ data) ∧
    (∀ data, (sieBulkOut data s).answer ≠ some .ack → (sieBulkOut data s).unreadOut = s.unreadOut) ∧
    (∀ t, s.outHasData = true → exec .usbGet s = .next t →
      ∃ b, t.response = some ⟨.ok, [b]⟩ ∧ s.unreadOut = b :: t.unreadOut) ∧
    (∀ t, s.outHasData = false → exec .usbGet s = .next t → t.unreadOut = s.unreadOut) ∧
    (∀ t, step s = .next t → s.keepsQueues t → s.unreadOut ++ s.receivedOut t = s.gotOut t ++ t.unreadOut)

/-! ### The poll -/

/-- A poll never stops while the endpoint-0 buffers that its event needs are the block's (41_usb_bulk.md R320): an IN
completion needs the IN buffer if it has a packet to send; an OUT completion needs the OUT buffer, and, for a SETUP packet
and for a line coding, the IN buffer; a bus reset needs both. -/
def Obligations.UsbPollCompletes : Prop :=
  ∀ s : State, s.Inv →
    (∀ q x, s.sie.queue = .doneEp0in :: q → s.ctl.pendingAddr = none → s.ctl.xfer = some x →
      0 < x.rem ∨ x.zlpDue = true → (s.bd .ep0in).own = .sw) →
    (∀ q, s.sie.queue = .doneEp0out :: q → (s.bd .ep0out).own = .sw ∧
      (s.bds.ep0setup = true ∨ s.ctl.lcPending = true → (s.bd .ep0in).own = .sw)) →
    (∀ q, s.sie.queue = .busReset :: q → (s.bd .ep0in).own = .sw ∧ (s.bd .ep0out).own = .sw) →
    Completes (exec .usbPoll s)

/-- A poll with no event, or with the completion of a bulk transaction: the event is taken, an empty bulk-OUT packet is
passed over, and the idle step is done (41_usb_bulk.md R304, R312, R320). -/
def Obligations.UsbPollWithoutControlEvent : Prop :=
  ∀ (s : State) (q : List SieEvent), s.Inv →
    ((s.sie.queue = [] ∧ q = []) ∨ ∃ k, s.sie.queue = .doneBin k :: q ∨ s.sie.queue = .doneBout k :: q) →
    let passes := s.dev.config ≠ 0 ∧ s.bd (.bout s.bout.active) = ⟨.sw, 0⟩
    let d := if passes then s.bds.set (.bout s.bout.active) ⟨.sie, s.cfg.bulkSize.val⟩ else s.bds
    let flushes := 0 < s.bin.fill ∧ s.cfg.idleFlushPolls.val ≤ s.bin.idle + 1
    exec .usbPoll s = .next { s with
      sie := { s.sie with queue := q }
      bout := if passes then ⟨1 - s.bout.active, 0⟩ else s.bout
      bds := if flushes then d.set (.bin s.bin.active) ⟨.sie, s.bin.fill⟩ else d
      bin := if flushes then ⟨1 - s.bin.active, 0, 0⟩
        else if 0 < s.bin.fill then ⟨s.bin.active, s.bin.fill, s.bin.idle + 1⟩ else ⟨s.bin.active, 0, 0⟩
      response := some ⟨.ok, []⟩ }

/-- Bytes that wait unflushed are flushed by exactly the poll at which the threshold is reached, and by none before, when
the client puts nothing more and no SIE event is pending; the buffer need not be full (41_usb_bulk.md R305, for a run
that begins with `idle` polls already counted). -/
def Obligations.IdleFlushComesAtTheThreshold : Prop :=
  ∀ s : State, s.Inv → 0 < s.bin.fill → s.sie.queue = [] →
    (∀ n, s.bin.idle + n < s.cfg.idleFlushPolls.val →
      ∃ t, polls n s = .next t ∧ t.bin = ⟨s.bin.active, s.bin.fill, s.bin.idle + n⟩ ∧
        ∀ k, t.bd (.bin k) = s.bd (.bin k)) ∧
    (∀ n, s.bin.idle + n = s.cfg.idleFlushPolls.val →
      ∃ t, polls n s = .next t ∧ t.bin = ⟨1 - s.bin.active, 0, 0⟩ ∧
        t.bd (.bin s.bin.active) = ⟨.sie, s.bin.fill⟩ ∧
        t.bd (.bin (1 - s.bin.active)) = s.bd (.bin (1 - s.bin.active)))

/-- A USB bus reset (40_usb_control.md R240, 41_usb_bulk.md R300), handled by a poll; the SIE has returned the buffers
of endpoint 0 before it posts the event (60_exceptions.md R612). That the buffers' bytes stay is the model's choice
(assumption 42). -/
def Obligations.UsbPollOnBusReset : Prop :=
  ∀ (s : State) (q : List SieEvent), s.sie.queue = .busReset :: q →
    (s.bd .ep0in).own = .sw → (s.bd .ep0out).own = .sw →
    exec .usbPoll s = .next { s with
      dev := { addr := 0, config := 0, halt := ⟨false, false, false⟩, lineCoding := s.dev.lineCoding }
      ctl := { pendingAddr := none, lcPending := false, xfer := none, stall := false }
      bds := {
        ep0out := ⟨.sie, s.cfg.ep0Size.bytes⟩, ep0setup := false, ep0in := ⟨.sw, 0⟩
        bin0 := ⟨.sw, 0⟩, bin1 := ⟨.sw, 0⟩, bout0 := ⟨.sw, 0⟩, bout1 := ⟨.sw, 0⟩ }
      bin := ⟨0, 0, 0⟩
      bout := ⟨0, 0⟩
      sie := {
        queue := q
        toggles := { s.sie.toggles with notify := false, out := false, in_ := false }
        nextIn := 0
        nextOut := 0 }
      pulses := s.pulses ++ [.toggleReset .notify, .toggleReset .out, .toggleReset .in_, .ppReset]
      response := some ⟨.ok, []⟩ }

/-- Endpoint-0 IN completion (40_usb_control.md R230, R231): a pending address is applied; otherwise the transfer in
progress sends its next packet, or the zero-length packet that is due, or ends; otherwise only the event is taken. -/
def Obligations.Ep0InCompletion : Prop :=
  ∀ (s : State) (q : List SieEvent), s.Inv → s.sie.queue = .doneEp0in :: q →
    (∀ a, s.ctl.pendingAddr = some a →
      serviceSie s = .next { s with
        sie := { s.sie with queue := q }
        dev := { s.dev with addr := a }
        ctl := { s.ctl with pendingAddr := none } }) ∧
    (∀ x, s.ctl.pendingAddr = none → s.ctl.xfer = some x → 0 < x.rem → (s.bd .ep0in).own = .sw →
      ∃ t, serviceSie s = .next t ∧
        t = { s with
          sie := { s.sie with queue := q }
          mem := t.mem
          bds := { s.bds with ep0in := ⟨.sie, min s.cfg.ep0Size.bytes x.rem⟩ }
          ctl := { s.ctl with xfer := some { x with
            off := x.off + min s.cfg.ep0Size.bytes x.rem
            rem := x.rem - min s.cfg.ep0Size.bytes x.rem } } } ∧
        (∀ j < min s.cfg.ep0Size.bytes x.rem,
          t.byteAt .ep0in j = substByte s.cfg x.subst (x.off + j) (x.data.getD (x.off + j) 0)) ∧
        (∀ a, (∀ j < min s.cfg.ep0Size.bytes x.rem, a ≠ Buf.ep0in.base + j) → t.mem.read a = s.mem.read a)) ∧
    (∀ x, s.ctl.pendingAddr = none → s.ctl.xfer = some x → x.rem = 0 → x.zlpDue = true → (s.bd .ep0in).own = .sw →
      serviceSie s = .next { s with
        sie := { s.sie with queue := q }
        bds := { s.bds with ep0in := ⟨.sie, 0⟩ }
        ctl := { s.ctl with xfer := some { x with zlpDue := false } } }) ∧
    (∀ x, s.ctl.pendingAddr = none → s.ctl.xfer = some x → x.rem = 0 → x.zlpDue = false →
      serviceSie s = .next { s with sie := { s.sie with queue := q }, ctl := { s.ctl with xfer := none } }) ∧
    (s.ctl.pendingAddr = none → s.ctl.xfer = none → serviceSie s = .next { s with sie := { s.sie with queue := q } })

/-- A non-setup OUT transaction on endpoint 0 (40_usb_control.md R203, R232): with a line coding pending, the leading
bytes received are stored and the status packet is armed; otherwise a transfer in progress ends; endpoint 0 OUT is
re-armed. -/
def Obligations.Ep0OutCompletion : Prop :=
  ∀ (s : State) (q : List SieEvent), s.sie.queue = .doneEp0out :: q → (s.bd .ep0out).own = .sw →
    s.bds.ep0setup = false →
    (s.ctl.lcPending = true → (s.bd .ep0in).own = .sw →
      ∃ t, serviceSie s = .next t ∧
        t = { s with
          sie := { s.sie with queue := q }
          dev := { s.dev with lineCoding := t.dev.lineCoding }
          ctl := { s.ctl with lcPending := false }
          bds := { s.bds with ep0in := ⟨.sie, 0⟩, ep0setup := false, ep0out := ⟨.sie, s.cfg.ep0Size.bytes⟩ } } ∧
        ∀ (j : Nat) (hj : j < 7), t.dev.lineCoding[j] =
          if j < (s.bd .ep0out).count then s.byteAt .ep0out j else s.dev.lineCoding[j]) ∧
    (s.ctl.lcPending = false →
      serviceSie s = .next { s with
        sie := { s.sie with queue := q }
        ctl := { s.ctl with xfer := none }
        bds := { s.bds with ep0setup := false, ep0out := ⟨.sie, s.cfg.ep0Size.bytes⟩ } })

/-! ### USB control requests -/

/-- GET_DESCRIPTOR of the device, the configuration and a string (40_usb_control.md R204, R210 to R212), and the bytes of
the serial-number string: at an offset that SERIAL_SLOTS names goes the character of SERIAL of that slot, at every other
offset, and in every other reply, the descriptor's own byte (R208). Of two equal offsets the model takes the lower slot,
its choice (assumption 37). -/
def Obligations.DescriptorRequestsReply : Prop :=
  ∀ (s : State) (d : BitVec 1) (r : BitVec 5) (x l : Half), s.Inv → (s.bd .ep0in).own = .sw →
    (∃ t, exec (.getDescriptorDevice d r 0 x l) s = .next t ∧ Replies (descriptors s.cfg).device l false s t) ∧
    (∃ t, exec (.getDescriptorConfiguration d r 0 x l) s = .next t ∧ Replies (descriptors s.cfg).config l false s t) ∧
    (∀ (i : Byte) (str : List Byte), (descriptors s.cfg).strings[i.toNat]? = some (some str) →
      let serial := i == s.cfg.serialStrIndex && s.cfg.serialAvailable
      ∃ t, exec (.getDescriptorString d r i x l) s = .next t ∧ Replies str l serial s t ∧
        ∀ o < firstPacket s.cfg str.length l,
          (∀ j : Fin 4, serial = true → s.cfg.serialSlots[j] = o → (∀ k < j, s.cfg.serialSlots[k] ≠ o) →
            t.byteAt .ep0in o = s.cfg.serial[j]) ∧
          (serial = false ∨ (∀ j : Fin 4, s.cfg.serialSlots[j] ≠ o) → t.byteAt .ep0in o = str.getD o 0)) ∧
    (∀ (o : Nat) (b : Byte),
      (∀ j : Fin 4, s.cfg.serialSlots[j] = o → (∀ k < j, s.cfg.serialSlots[k] ≠ o) →
        substByte s.cfg true o b = s.cfg.serial[j]) ∧
      ((∀ j : Fin 4, s.cfg.serialSlots[j] ≠ o) → substByte s.cfg true o b = b) ∧ substByte s.cfg false o b = b)

/-- The other requests that reply with data (40_usb_control.md R216 to R218, R221, R224, R227). -/
def Obligations.DataRequestsReply : Prop :=
  ∀ (s : State) (d : BitVec 1) (r : BitVec 5) (v x l : Half), s.Inv → (s.bd .ep0in).own = .sw →
    (lowByte x ∈ [0x00, 0x80] →
      ∃ t, exec (.getStatus d 2 v x l) s = .next t ∧ Replies [0x00, 0x00] l false s t) ∧
    (∀ e, lowByte x ∉ [0x00, 0x80] → endpointOf s.cfg (lowByte x) = some e →
      ∃ t, exec (.getStatus d 2 v x l) s = .next t ∧
        Replies [if s.dev.halt.get e then 0x01 else 0x00, 0x00] l false s t) ∧
    (∃ t, exec (.getConfiguration d r v x l) s = .next t ∧ Replies [s.dev.config] l false s t) ∧
    (lowByte x = 0 ∨ lowByte x = 1 →
      ∃ t, exec (.getInterface d r v x l) s = .next t ∧ Replies [0x00] l false s t) ∧
    (∃ t, exec (.synchFrame d r v x l) s = .next t ∧ Replies [0x00, 0x00] l false s t) ∧
    (∃ t, exec (.getLineCoding d r v x l) s = .next t ∧ Replies s.dev.lineCoding.toList l false s t) ∧
    (∃ t, exec (.getEncapsulatedResponse d r v x l) s = .next t ∧ Replies [] l false s t)

/-- SET_FEATURE and CLEAR_FEATURE of the endpoint halt (40_usb_control.md R219, R220). -/
def Obligations.FeatureRequestsSetTheHalt : Prop :=
  ∀ (s : State) (d : BitVec 1) (x l : Half), (s.bd .ep0in).own = .sw →
    (∀ e, endpointOf s.cfg (lowByte x) = some e →
      exec (.setFeature d 2 0 x l) s = .next { s with
        dev := { s.dev with halt := s.dev.halt.set e true }
        bds := { s.bds with ep0in := ⟨.sie, 0⟩ } } ∧
      exec (.clearFeature d 2 0 x l) s = .next { s with
        dev := { s.dev with halt := s.dev.halt.set e false }
        pulses := s.pulses ++ [.toggleReset e]
        sie := { s.sie with toggles := s.sie.toggles.restart e }
        bds := { s.bds with ep0in := ⟨.sie, 0⟩ } }) ∧
    (endpointOf s.cfg (lowByte x) = none → lowByte x ∈ [0x00, 0x80] →
      exec (.setFeature d 2 0 x l) s = .next (acknowledged s) ∧
      exec (.clearFeature d 2 0 x l) s = .next (acknowledged s))

/-- SET_CONFIGURATION (40_usb_control.md R215, 41_usb_bulk.md R300): the value, the halts, the toggles, and every bulk
buffer and manager start again; the bulk-OUT buffers are armed unless the value is 0. That the buffers' bytes stay is
the model's choice (assumption 42). -/
def Obligations.SetConfigurationRestartsTheEndpoints : Prop :=
  ∀ (s : State) (d : BitVec 1) (r : BitVec 5) (v x l : Half), (s.bd .ep0in).own = .sw →
    (lowByte v = 0 ∨ lowByte v = s.cfg.configValue) →
    exec (.setConfiguration d r v x l) s = .next { s with
      dev := { s.dev with config := lowByte v, halt := ⟨false, false, false⟩ }
      bds := { s.bds with
        ep0in := ⟨.sie, 0⟩, bin0 := ⟨.sw, 0⟩, bin1 := ⟨.sw, 0⟩
        bout0 := if lowByte v = 0 then ⟨.sw, 0⟩ else ⟨.sie, s.cfg.bulkSize.val⟩
        bout1 := if lowByte v = 0 then ⟨.sw, 0⟩ else ⟨.sie, s.cfg.bulkSize.val⟩ }
      bin := ⟨0, 0, 0⟩
      bout := ⟨0, 0⟩
      sie := {
        queue := s.sie.queue
        toggles := { s.sie.toggles with notify := false, out := false, in_ := false }
        nextIn := 0
        nextOut := 0 }
      pulses := s.pulses ++ [.toggleReset .notify, .toggleReset .out, .toggleReset .in_, .ppReset] }

/-- SET_ADDRESS, whose address waits for the status stage, the requests that are only acknowledged, and
SET_LINE_CODING, whose data stage is awaited (40_usb_control.md R214, R222, R223, R225, R226). -/
def Obligations.RequestsWithoutDataAcknowledge : Prop :=
  ∀ (s : State) (d : BitVec 1) (r : BitVec 5) (v x l : Half),
    (l ≠ 0 → exec (.setLineCoding d r v x l) s = .next { s with ctl := { s.ctl with lcPending := true } }) ∧
    ((s.bd .ep0in).own = .sw →
      (v.toNat ≤ 127 → exec (.setAddress d r v x l) s = .next { s with
        ctl := { s.ctl with pendingAddr := some (v.extractLsb' 0 7) }
        bds := { s.bds with ep0in := ⟨.sie, 0⟩ } }) ∧
      exec (.setLineCoding d r v x 0) s = .next (acknowledged s) ∧
      (lowByte x = 0 ∨ lowByte x = 1 → exec (.setInterface d r 0 x l) s = .next (acknowledged s)) ∧
      exec (.setControlLineState d r v x l) s = .next (acknowledged s) ∧
      exec (.sendEncapsulatedCommand d r v x l) s = .next (acknowledged s))

/-- The requests that a request rule stalls, in every state (40_usb_control.md R210 to R215, R217 to R220, R222). -/
def Obligations.RefusedRequestsStall : Prop :=
  ∀ (s : State) (d : BitVec 1) (r : BitVec 5) (v x l : Half) (t i : Byte),
    let stalled : Res :=
      .next { s with ctl := { pendingAddr := none, lcPending := false, xfer := none, stall := true } }
    (i ≠ 0 → exec (.getDescriptorDevice d r i x l) s = stalled) ∧
    (i ≠ 0 → exec (.getDescriptorConfiguration d r i x l) s = stalled) ∧
    ((∀ str, (descriptors s.cfg).strings[i.toNat]? ≠ some (some str)) →
      exec (.getDescriptorString d r i x l) s = stalled) ∧
    exec (.getDescriptorOther d r t i x l) s = stalled ∧
    (127 < v.toNat → exec (.setAddress d r v x l) s = stalled) ∧
    (lowByte v ≠ 0 → lowByte v ≠ s.cfg.configValue → exec (.setConfiguration d r v x l) s = stalled) ∧
    (1 < (lowByte x).toNat → exec (.getInterface d r v x l) s = stalled) ∧
    (1 < (lowByte x).toNat ∨ v ≠ 0 → exec (.setInterface d r v x l) s = stalled) ∧
    (r ≠ 2 ∨ (endpointOf s.cfg (lowByte x) = none ∧ lowByte x ∉ [0x00, 0x80]) →
      exec (.getStatus d r v x l) s = stalled) ∧
    (r ≠ 2 ∨ v ≠ 0 ∨ (endpointOf s.cfg (lowByte x) = none ∧ lowByte x ∉ [0x00, 0x80]) →
      exec (.setFeature d r v x l) s = stalled ∧ exec (.clearFeature d r v x l) s = stalled)

/-- A request that stalls changes nothing but the control-transfer state (60_exceptions.md R601). -/
def Obligations.StalledRequestLeavesNoPartialChange : Prop :=
  ∀ (i : Instr) (s t : State), i.opClass = .setup → exec i s = .next t → s.ctl.stall = false → t.ctl.stall = true →
    t = { s with ctl := { pendingAddr := none, lcPending := false, xfer := none, stall := true } }

/-! ### The serial bus and the raw register operations -/

/-- Every operation performs whole transactions, each with one byte received for each byte sent, and none with a command
byte that CHIP does not give the block (30_encoding.md R160 to R162, 42_serial_bus.md R350). -/
def Obligations.TransactionsAreOfTheCommandSet : Prop :=
  ∀ (i : Instr) (s t : State), exec i s = .next t →
    ∃ new, t.txns = s.txns ++ new ∧ ∀ x ∈ new, x.miso.length = x.mosi.length ∧
      ∃ cmd ∈ s.cfg.chip.commands, x.mosi.head? = some cmd

/-- The raw register operations with the default CHIP (42_serial_bus.md R352 to R356): one transaction each, on the chip
as it is when the transaction begins. RESET gives every register its reset value (R352, 60_exceptions.md R613), a write
the byte's writable bits (R354), a bit modify the masked bits (R355), and each leaves every other register as it was. The
reset values that the spec does not state, the writable bits and the registers that support bit modify are the chip
family's (assumptions 11, 13, 14, 15). -/
def Obligations.RawOperationsOfTheClient : Prop :=
  ∀ s : State, s.cfg.chip = mcp2515 → let c := (letOutside s).chip
    (∃ t, exec .canReset s = .next t ∧ t.response = some ⟨.ok, []⟩ ∧ t.can = s.can ∧
      t.sentOnBus = s.sentOnBus ++ [[0xC0]] ∧ t.chip.inConfigMode mcp2515 = true ∧
      (∀ x, t.chip.txreq mcp2515 x = false) ∧ (∀ b, t.chip.rxFull mcp2515 b = false) ∧ t.chip.onBus = none ∧
      ∀ a v, chipResetValue a = some v → t.chip.cell a = v) ∧
    (∀ a, ∃ t v, exec (.canReadReg a) s = .next t ∧ t.response = some ⟨.ok, [v]⟩ ∧ t.can = s.can ∧
      t.sentOnBus = s.sentOnBus ++ [[0x03, a, 0x00]] ∧ t.chip = c ∧ (a.toNat < 128 → v = c.reg a)) ∧
    (∀ a d, ∃ t, exec (.canWriteReg a d) s = .next t ∧ t.response = some ⟨.ok, []⟩ ∧ t.can = s.can ∧
      t.sentOnBus = s.sentOnBus ++ [[0x02, a, d]] ∧ RegistersWritten c t.chip a.toNat [d]) ∧
    (∀ a k d, ∃ t, exec (.canBitModify a k d) s = .next t ∧ t.response = some ⟨.ok, []⟩ ∧ t.can = s.can ∧
      t.sentOnBus = s.sentOnBus ++ [[0x05, a, k, d]] ∧
      RegistersWritten c t.chip a.toNat
        [if supportsBitModify a.toNat then (c.reg a &&& ~~~k) ||| (d &&& k) else d]) ∧
    (∃ t, exec .canReadStatus s = .next t ∧ t.response = some ⟨.ok, [c.status mcp2515]⟩ ∧ t.can = s.can ∧
      t.sentOnBus = s.sentOnBus ++ [[0xA0, 0x00]] ∧ t.chip = c)

/-- The serial commands with the default CHIP (42_serial_bus.md R352 to R358), each one transaction of the bytes of its
rule, with what it leaves of the chip's registers: WRITE and LOAD TX write the bytes to consecutive registers, in order,
LOAD TX from the slot's SIDH on, and no other (R354, R357); READ RX frees its buffer, and leaves every other bit of every
register, the frame on the bus and the frames sent as they were (R358). The family's registers are as in the raw
operations of the client (assumptions 11, 13, 14, 15); that a WRITE past the last register changes no register below is
the model's choice (assumption 16). -/
def Obligations.SerialCommandsComplete : Prop :=
  ∀ s : State, s.cfg.chip = mcp2515 → let c := (letOutside s).chip
    (∃ t, exec .spiReset s = .next t ∧ t.can = s.can ∧ t.response = s.response ∧
      t.sentOnBus = s.sentOnBus ++ [[0xC0]] ∧ t.chip.inConfigMode mcp2515 = true ∧
      (∀ x, t.chip.txreq mcp2515 x = false) ∧ (∀ b, t.chip.rxFull mcp2515 b = false) ∧ t.chip.onBus = none ∧
      ∀ a v, chipResetValue a = some v → t.chip.cell a = v) ∧
    (∀ a, ∃ t, exec (.spiRead a) s = .next t ∧ t.can = s.can ∧ t.response = s.response ∧ t.chip = c ∧
      t.sentOnBus = s.sentOnBus ++ [[0x03, a, 0x00]]) ∧
    (∀ a ds, ∃ t, exec (.spiWrite a ds) s = .next t ∧ t.can = s.can ∧ t.response = s.response ∧
      t.sentOnBus = s.sentOnBus ++ [[0x02, a] ++ ds] ∧ RegistersWritten c t.chip a.toNat ds) ∧
    (∀ a k d, ∃ t, exec (.spiBitModify a k d) s = .next t ∧ t.can = s.can ∧ t.response = s.response ∧
      t.sentOnBus = s.sentOnBus ++ [[0x05, a, k, d]] ∧
      RegistersWritten c t.chip a.toNat
        [if supportsBitModify a.toNat then (c.reg a &&& ~~~k) ||| (d &&& k) else d]) ∧
    (∃ t, exec .spiReadStatus s = .next t ∧ t.can = s.can ∧ t.response = s.response ∧ t.chip = c ∧
      t.sentOnBus = s.sentOnBus ++ [[0xA0, 0x00]]) ∧
    (∀ x ds, ∃ t, exec (.spiLoadTx x ds) s = .next t ∧ t.can = s.can ∧ t.response = s.response ∧
      t.sentOnBus = s.sentOnBus ++ [BitVec.ofNat 8 (0x40 + 2 * x.val) :: ds] ∧
      RegistersWritten c t.chip (0x31 + 0x10 * x.val) ds) ∧
    (∀ b, ∃ t, exec (.spiReadRx b) s = .next t ∧ t.can = s.can ∧ t.response = s.response ∧
      t.sentOnBus = s.sentOnBus ++
        [BitVec.ofNat 8 (0x90 + 4 * b.val) :: List.replicate (5 + c.rxLength mcp2515 b) 0x00] ∧
      t.chip.rxFull mcp2515 b = false ∧
      (∀ j, j ≠ b.val → (t.chip.reg 0x2C).getLsbD j = (c.reg 0x2C).getLsbD j) ∧
      (∀ a : Byte, a ≠ 0x2C → t.chip.reg a = c.reg a) ∧ t.chip.onBus = c.onBus ∧ t.chip.sent = c.sent)

/-- BIT MODIFY on the default chip changes the bits of the mask that the register lets a write change, and no other bit
of any register (42_serial_bus.md R355). Which registers support it and which bits a write changes are the chip family's
(assumptions 13, 14). -/
def Obligations.BitModifyChangesTheMaskedBits : Prop :=
  ∀ (c : Chip) (a k d : Byte), a.toNat < 128 → supportsBitModify a.toNat = true →
    (configOnly a.toNat = true → c.inConfigMode mcp2515 = true) →
    (∀ j, ((c.bitModify mcp2515 a.toNat k d).reg a).getLsbD j =
      if k.getLsbD j && (writableBits a.toNat).getLsbD j then d.getLsbD j else (c.reg a).getLsbD j) ∧
    ∀ b : Byte, b ≠ a → (c.bitModify mcp2515 a.toNat k d).reg b = c.reg b

/-- How the default chip records an error and how its flags are seen. A bus error condition gives EFLG the flags of
the event, but for the overrun flags, and an overrun, which is a frame that finds no free buffer, its flag; with
CANINTE.ERRIE set CANINTF.ERRIF is raised and INT asserted (60_exceptions.md R609, 45_can_rx.md R511); nothing else
changes but the error counters. Which overrun flag, the modes that receive, ERRIF without ERRIE and the counters are
the model's choice or its reading (assumptions 18, 19, 20). READ STATUS gives each flag in its bit (42_serial_bus.md
R351). A pin RXbBF that the chip drives as a digital output shows BbBFS, active low, and on sound wires, with BFPCTRL
= 0x0F, the pins show the receive flags, and the error pin shows whether an enabled interrupt flag is set
(43_can_config.md R401, 60_exceptions.md R613). A pin that the chip does not drive is not asserted (assumption 21). -/
def Obligations.FlagsAreRecordedAndReported : Prop :=
  (∀ (c : Chip) (flags tx rx : Byte) (n : Nat), let d := c.act mcp2515 (.busError flags tx rx) n
    ErrorRecorded c d (((c.reg 0x2D) &&& 0xC0) ||| (flags &&& 0x3F)) ∧ d.reg 0x1C = tx ∧ d.reg 0x1D = rx ∧
      ∀ a : Byte, a ∉ [0x1C, 0x1D, 0x2C, 0x2D] → d.reg a = c.reg a) ∧
  (∀ (c : Chip) (f : CanFrame) (n : Nat), c.modeReceives mcp2515 = true →
    let d := c.act mcp2515 (.receive f) n
    let first := c.accepts0 mcp2515 f n && c.rxFull mcp2515 0
    let rolls := (c.reg 0x60).getLsbD 2
    let second := if first then rolls else !c.accepts0 mcp2515 f n && c.accepts1 mcp2515 f n
    (first = true → rolls = false → ErrorRecorded c d (c.reg 0x2D ||| 0x40) ∧
      ∀ a : Byte, a ∉ [0x2C, 0x2D] → d.reg a = c.reg a) ∧
    (second = true → c.rxFull mcp2515 1 = true → ErrorRecorded c d (c.reg 0x2D ||| 0x80) ∧
      ∀ a : Byte, a ∉ [0x2C, 0x2D] → d.reg a = c.reg a)) ∧
  (∀ c : Chip,
    (∀ b : Fin 2, (c.status mcp2515).getLsbD b.val = (c.reg 0x2C).getLsbD b.val) ∧
    (∀ x : Fin 3,
      (c.status mcp2515).getLsbD (2 + 2 * x.val) = (c.reg (BitVec.ofNat 8 (0x30 + 0x10 * x.val))).getLsbD 3 ∧
      (c.status mcp2515).getLsbD (3 + 2 * x.val) = (c.reg 0x2C).getLsbD (2 + x.val)) ∧
    (∀ b : Fin 2,
      ((c.reg 0x0C).getLsbD (2 + b.val) = false → c.rxPin mcp2515 b = false) ∧
      ((c.reg 0x0C).getLsbD (2 + b.val) = true → (c.reg 0x0C).getLsbD b.val = false →
        c.rxPin mcp2515 b = !(c.reg 0x0C).getLsbD (4 + b.val)) ∧
      ((c.reg 0x0C).getLsbD (2 + b.val) = true → (c.reg 0x0C).getLsbD b.val = true →
        c.rxPin mcp2515 b = (c.reg 0x2C).getLsbD b.val))) ∧
  (∀ s : State, s.cfg.chip = mcp2515 →
    (s.pins.rx0 = .sound → s.chip.reg 0x0C = 0x0F → s.pinNow .rx0 = (s.chip.reg 0x2C).getLsbD 0) ∧
    (s.pins.rx1 = .sound → s.chip.reg 0x0C = 0x0F → s.pinNow .rx1 = (s.chip.reg 0x2C).getLsbD 1) ∧
    (s.pins.err = .sound → s.pinNow .err = decide (s.chip.reg 0x2C &&& s.chip.reg 0x2B ≠ 0)))

/-! ### CAN configuration -/

/-- The transactions of CAN_SET_TIMING, CAN_SET_PRESET, CAN_SET_MASK and CAN_SET_CODE with the default CHIP, and the
preset index above 8 that is refused with nothing done (43_can_config.md R402, R403, R407, R408). -/
def Obligations.ConfigurationWrites : Prop :=
  ∀ s : State, s.cfg.chip = mcp2515 →
    (∀ c1 c2 c3, ∃ t, exec (.canSetTiming c1 c2 c3) s = .next t ∧ t.response = some ⟨.ok, []⟩ ∧ t.can = s.can ∧
      t.sentOnBus = s.sentOnBus ++ [[0x02, 0x2A, c1], [0x02, 0x29, c2], [0x02, 0x28, c3]]) ∧
    (∀ (k : Byte) (hk : k.toNat < 9), ∃ t, exec (.canSetPreset k) s = .next t ∧ t.response = some ⟨.ok, []⟩ ∧
      t.can = s.can ∧
      t.sentOnBus = s.sentOnBus ++ [[0x02, 0x2A, s.cfg.preset[k.toNat].cnf1],
        [0x02, 0x29, s.cfg.preset[k.toNat].cnf2], [0x02, 0x28, s.cfg.preset[k.toNat].cnf3]]) ∧
    (∀ k : Byte, 8 < k.toNat → exec (.canSetPreset k) s = .next { s with response := some ⟨.no, []⟩ }) ∧
    (∀ m0 m1 m2 m3 : Byte, ∃ t, exec (.canSetMask m0 m1 m2 m3) s = .next t ∧ t.response = some ⟨.ok, []⟩ ∧
      t.can = s.can ∧
      t.sentOnBus = s.sentOnBus ++ [[0x02, 0x20, ~~~m0, ~~~m1, ~~~m2, ~~~m3],
        [0x02, 0x24, ~~~m0, ~~~m1, ~~~m2, ~~~m3]]) ∧
    (∀ c0 c1 c2 c3 : Byte, ∃ t, exec (.canSetCode c0 c1 c2 c3) s = .next t ∧ t.response = some ⟨.ok, []⟩ ∧
      t.can = s.can ∧
      t.sentOnBus = s.sentOnBus ++ [
        [0x02, 0x00, c0, c1 &&& 0xF7, c2, c3], [0x02, 0x04, c0, c1 ||| 0x08, c2, c3],
        [0x02, 0x08, c0, c1 &&& 0xF7, c2, c3], [0x02, 0x10, c0, c1 ||| 0x08, c2, c3],
        [0x02, 0x14, c0, c1 &&& 0xF7, c2, c3], [0x02, 0x18, c0, c1 ||| 0x08, c2, c3]])

/-- The default chip takes the configuration operations in configuration mode, into the CNF registers, the masks and the
filters and no other register, and ignores them outside it; either way they are answered OK (60_exceptions.md R613,
70_reset_and_hazards.md R725; nothing else happening meanwhile). The bits stated are those of 43_can_config.md R401; that
the '-' bits keep theirs is the chip family's (assumption 13) and is not stated. -/
def Obligations.ConfigurationIsTakenInItsModeOnly : Prop :=
  ∀ s : State, s.cfg.chip = mcp2515 → s.during = [] →
    (s.chip.inConfigMode mcp2515 = false → ∀ (i : Instr),
      ((∃ c1 c2 c3, i = .canSetTiming c1 c2 c3) ∨ (∃ k : Byte, k.toNat ≤ 8 ∧ i = .canSetPreset k) ∨
        (∃ m0 m1 m2 m3, i = .canSetMask m0 m1 m2 m3) ∨ (∃ c0 c1 c2 c3, i = .canSetCode c0 c1 c2 c3)) →
      ∃ t, exec i s = .next t ∧ t.response = some ⟨.ok, []⟩ ∧ t.chip = s.chip) ∧
    (s.chip.inConfigMode mcp2515 = true →
      (∀ c1 c2 c3, ∃ t, exec (.canSetTiming c1 c2 c3) s = .next t ∧ t.response = some ⟨.ok, []⟩ ∧
        t.chip.cell 0x2A = c1 ∧ t.chip.cell 0x29 = c2 ∧ t.chip.cell 0x28 &&& 0xC7 = c3 &&& 0xC7 ∧
        ∀ a, a < 0x28 ∨ 0x2A < a → t.chip.cell a = s.chip.cell a) ∧
      (∀ (k : Byte) (hk : k.toNat < 9), ∃ t, exec (.canSetPreset k) s = .next t ∧ t.response = some ⟨.ok, []⟩ ∧
        t.chip.cell 0x2A = s.cfg.preset[k.toNat].cnf1 ∧ t.chip.cell 0x29 = s.cfg.preset[k.toNat].cnf2 ∧
        t.chip.cell 0x28 &&& 0xC7 = s.cfg.preset[k.toNat].cnf3 &&& 0xC7 ∧
        ∀ a, a < 0x28 ∨ 0x2A < a → t.chip.cell a = s.chip.cell a) ∧
      (∀ m0 m1 m2 m3 : Byte, ∃ t, exec (.canSetMask m0 m1 m2 m3) s = .next t ∧ t.response = some ⟨.ok, []⟩ ∧
        (∀ a ∈ [0x20, 0x24], t.chip.cell a = ~~~m0 ∧ t.chip.cell (a + 1) &&& 0xE3 = ~~~m1 &&& 0xE3 ∧
          t.chip.cell (a + 2) = ~~~m2 ∧ t.chip.cell (a + 3) = ~~~m3) ∧
        ∀ a, a < 0x20 ∨ 0x27 < a → t.chip.cell a = s.chip.cell a) ∧
      (∀ c0 c1 c2 c3 : Byte, ∃ t, exec (.canSetCode c0 c1 c2 c3) s = .next t ∧ t.response = some ⟨.ok, []⟩ ∧
        (∀ a ∈ [0x00, 0x08, 0x14], t.chip.cell a = c0 ∧ t.chip.cell (a + 1) &&& 0xEB = c1 &&& 0xE3 ∧
          t.chip.cell (a + 2) = c2 ∧ t.chip.cell (a + 3) = c3) ∧
        (∀ a ∈ [0x04, 0x10, 0x18], t.chip.cell a = c0 ∧ t.chip.cell (a + 1) &&& 0xEB = (c1 &&& 0xE3) ||| 0x08 ∧
          t.chip.cell (a + 2) = c2 ∧ t.chip.cell (a + 3) = c3) ∧
        ∀ a, (0x0B < a ∧ a < 0x10) ∨ 0x1B < a → t.chip.cell a = s.chip.cell a))

/-- CAN_READ_ERRFLAGS with the default CHIP (43_can_config.md R411, R412). -/
def Obligations.ErrorFlagsAreDecoded : Prop :=
  ∀ s : State, s.cfg.chip = mcp2515 → let e := (letOutside s).chip.reg 0x2D
    ∃ t w, exec .canReadErrflags s = .next t ∧ t.response = some ⟨.ok, [w]⟩ ∧ t.can = s.can ∧
      t.chip = (letOutside s).chip ∧ t.sentOnBus = s.sentOnBus ++ [[0x03, 0x2D, 0x00]] ∧
      w.getLsbD 0 = e.getLsbD 0 ∧ w.getLsbD 1 = (e.getLsbD 6 || e.getLsbD 7) ∧
      w.getLsbD 2 = (e.getLsbD 3 || e.getLsbD 4) ∧ w.getLsbD 3 = e.getLsbD 5 ∧ w.toNat < 16

/-- CAN_INIT with the spec's default self-test and CHIP (43_can_config.md R420, R421): it always answers, with the same 20
transactions whatever the pins show, and starts the driver's state again. -/
def Obligations.InitialisationTransactions : Prop :=
  ∀ s : State, s.cfg.chip = mcp2515 → s.cfg.selfTest = defaultSelfTest →
    ∃ t ok, exec .canInit s = .next t ∧ t.response = some ⟨.ok, [if ok then 0x01 else 0x00]⟩ ∧
      t.can = ⟨3, #v[0, 0, 0], s.cfg.rxLastReset, ok⟩ ∧
      t.sentOnBus = s.sentOnBus ++ [
        [0xC0],
        [0x02, 0x20, 0x00, 0x00, 0x00, 0x00], [0x02, 0x24, 0x00, 0x00, 0x00, 0x00],
        [0x02, 0x00, 0x00, 0x00, 0x00, 0x00], [0x02, 0x04, 0x00, 0x08, 0x00, 0x00],
        [0x02, 0x08, 0x00, 0x00, 0x00, 0x00], [0x02, 0x10, 0x00, 0x08, 0x00, 0x00],
        [0x02, 0x14, 0x00, 0x00, 0x00, 0x00], [0x02, 0x18, 0x00, 0x08, 0x00, 0x00],
        [0x02, 0x60, 0x04], [0x02, 0x2B, 0x00],
        [0x02, 0x0C, 0x2C],
        [0x02, 0x0C, 0x1C],
        [0x02, 0x0C, 0x3C], [0x02, 0x2B, 0x20], [0x05, 0x2C, 0x20, 0x20],
        [0x05, 0x2C, 0x20, 0x00], [0x02, 0x2B, 0x00],
        [0x02, 0x0C, 0x0F], [0x02, 0x2B, s.cfg.inteAfterInit]]

/-- The default self-test passes when the three wires are sound, and fails when one of them is stuck at any level
(43_can_config.md R420, R421; the default CHIP, nothing else happening meanwhile). What a stuck wire shows is the model's
choice (assumption 21). -/
def Obligations.SelfTestTellsAStuckWire : Prop :=
  ∀ s : State, s.cfg.chip = mcp2515 → s.cfg.selfTest = defaultSelfTest → s.during = [] →
    ∃ t, exec .canInit s = .next t ∧
      ((s.pins.rx0 = .sound ∧ s.pins.rx1 = .sound ∧ s.pins.err = .sound) →
        t.response = some ⟨.ok, [0x01]⟩ ∧ t.can.selfTestOk = true) ∧
      ((∃ b, s.pins.rx0 = .stuck b ∨ s.pins.rx1 = .stuck b ∨ s.pins.err = .stuck b) →
        t.response = some ⟨.ok, [0x00]⟩ ∧ t.can.selfTestOk = false)

/-- The default chip after CAN_INIT with the default self-test (43_can_config.md R423): configuration mode, no bit
rate, no slot busy, no buffer full, every frame accepted by both buffers, rollover, and the pins back to buffer-full
outputs. From there nothing that happens in the chip makes it leave configuration mode, start a frame, send one or fill
a buffer, and no write at another address than CANCTRL's makes it leave configuration mode, start a frame or send one:
before the client writes a mode it neither sends nor receives (70_reset_and_hazards.md R705). That a write of CANSTAT
does not change the mode is the chip family's (assumption 13), and that an address which the map does not name is no
second CANCTRL, and that one outside the map changes nothing, are the model's choice (assumption 15). When the chip
enters a mode, and in which modes it sends and receives, is the model's or the family's (assumptions 17, 18). -/
def Obligations.ChipAfterInitialisation : Prop :=
  ∀ s : State, s.cfg.chip = mcp2515 → s.cfg.selfTest = defaultSelfTest → s.during = [] →
    ∃ t, exec .canInit s = .next t ∧ t.chip.inConfigMode mcp2515 = true ∧
      t.chip.reg 0x28 = 0x00 ∧ t.chip.reg 0x29 = 0x00 ∧ t.chip.reg 0x2A = 0x00 ∧
      (∀ x, t.chip.txreq mcp2515 x = false) ∧ (∀ b, t.chip.rxFull mcp2515 b = false) ∧ t.chip.bukt mcp2515 = true ∧
      t.chip.reg 0x0C = 0x0F ∧ t.chip.reg 0x2B = s.cfg.inteAfterInit ∧
      (∀ f n, t.chip.accepts0 mcp2515 f n = true ∧ t.chip.accepts1 mcp2515 f n = true) ∧
      t.chip.Closed ∧
      ∀ c : Chip, c.Closed →
        (∀ e n, (c.act mcp2515 e n).Closed ∧ (c.act mcp2515 e n).sent = c.sent ∧
          ∀ b, (c.act mcp2515 e n).rxFull mcp2515 b = c.rxFull mcp2515 b) ∧
        ∀ a v, a ≠ 0x0F → (c.writeAt mcp2515 a v).Closed ∧ (c.writeAt mcp2515 a v).sent = c.sent

/-! ### CAN transmission -/

/-- CAN_SEND with the default CHIP (44_can_tx.md R450, R451, R454 to R457, R461): what is refused with nothing done, what
is refused after one READ STATUS, and the transactions and the memory of an accepted frame. -/
def Obligations.CanSendEffect : Prop :=
  ∀ (s : State) (flags : Byte) (id : BitVec 32) (dlc : Byte) (data : Vector Byte 8), s.cfg.chip = mcp2515 →
    let st := (letOutside s).chip.status mcp2515
    let busy := ([0, 1, 2] : List (Fin 3)).filter fun x => st.getLsbD (2 + 2 * x.val)
    (15 < dlc.toNat → exec (.canSend flags id dlc data) s = .next { s with response := some ⟨.no, []⟩ }) ∧
    (dlc.toNat ≤ 15 → busy = [0, 1, 2] →
      ∃ t, exec (.canSend flags id dlc data) s = .next t ∧ t.response = some ⟨.no, []⟩ ∧ t.can = s.can ∧
        t.chip = (letOutside s).chip ∧ t.sentOnBus = s.sentOnBus ++ [[0xA0, 0x00]]) ∧
    (dlc.toNat ≤ 15 → busy ≠ [0, 1, 2] →
      ∃ t ch, chooseSlot busy s.can.slotPrio = some ch ∧
        exec (.canSend flags id dlc data) s = .next t ∧ t.response = some ⟨.ok, []⟩ ∧
        t.can = { s.can with
          txprio := ch.prio, slotPrio := (promotePrios s.can.slotPrio ch.promos).set ch.slot ch.prio } ∧
        t.sentOnBus = s.sentOnBus ++ [[0xA0, 0x00]] ++
          ch.promos.map (fun p => [0x05, BitVec.ofNat 8 (0x30 + 0x10 * p.1.val), 0x03, BitVec.ofNat 8 p.2.val]) ++
          [BitVec.ofNat 8 (0x40 + 2 * ch.slot.val) :: operandBytes flags id dlc data,
            [0x02, BitVec.ofNat 8 (0x30 + 0x10 * ch.slot.val), 0x08 ||| BitVec.ofNat 8 ch.prio.val]])

/-- With the default CHIP a frame is refused for want of a slot exactly when all three slots are busy
(44_can_tx.md R450, R463). -/
def Obligations.RefusedExactlyWhenAllSlotsAreBusy : Prop :=
  ∀ (c : Chip) (sp : Vector (Fin 4) 3),
    chooseSlot (busySlots mcp2515 (c.status mcp2515)) sp = none ↔ ∀ x, c.txreq mcp2515 x = true

/-- The choice is that of the table of 44_can_tx.md R452 with the preference of R453, for no, one and two busy slots; it
takes a free slot, gives the new frame a rank below every busy slot's, and leaves the busy slots in their order
(R459). -/
def Obligations.ChoiceFollowsTheTableAndKeepsTheAge : Prop :=
  (∀ sp, chooseSlot [] sp = some ⟨2, 3, []⟩) ∧
  (∀ (a : Fin 3) (sp : Vector (Fin 4) 3), ∃ ch, chooseSlot [a] sp = some ch ∧
    ch.slot = (if a = 2 then 1 else if a = 1 then 0 else 2) ∧
    ch.promos = (if ch.slot < a ∨ 0 < sp[a].val then [] else [(a, 3)]) ∧
    ch.prio.val = if ch.slot < a then sp[a].val else if 0 < sp[a].val then sp[a].val - 1 else 2) ∧
  (∀ (a b c : Fin 3) (sp : Vector (Fin 4) 3), a ≠ b → c ≠ a → c ≠ b → 4 * sp[b].val + b.val < 4 * sp[a].val + a.val →
    ∃ ch, chooseSlot (if a < b then [a, b] else [b, a]) sp = some ch ∧ ch.slot = c ∧
      ch.promos = [(a, 3), (b, if b < a then 3 else 2)] ∧ ch.prio.val = if b < a then 2 else 1) ∧
  (∀ (busy : List (Fin 3)) (sp : Vector (Fin 4) 3) (ch : TxChoice), busy.Sublist [0, 1, 2] →
    chooseSlot busy sp = some ch →
    let sp' := (promotePrios sp ch.promos).set ch.slot ch.prio
    ch.slot ∉ busy ∧ (∀ x ∈ busy, slotRank sp' ch.slot < slotRank sp' x) ∧
      (∀ x ∈ busy, ∀ y ∈ busy, slotRank sp y < slotRank sp x → slotRank sp' y < slotRank sp' x) ∧
      ∀ x, x ∉ busy → x ≠ ch.slot → sp'[x] = sp[x])

/-- Frames leave in the order in which they were accepted (44_can_tx.md R459, R460, R462), as a law of every step: from a
state whose pending frames stand in order, with the default CHIP and self-test, a step sends some of them, the oldest
first and in order, and leaves the others in order; after a CAN_RESET or a CAN_INIT none is pending, a frame that
CAN_SEND accepts is the newest, and nothing else adds one. The one step shut out is a raw operation of the client on a
transmit control register, after which the guarantee is void (70_reset_and_hazards.md R728). The transaction that
State.withFetchWord places is no step of the block (assumption 3). -/
def Obligations.StepKeepsTheSendOrder : Prop :=
  ∀ (s t : State) (order : List (Fin 3)), s.cfg.chip = mcp2515 → s.cfg.selfTest = defaultSelfTest → s.bench = none →
    s.SendsInOrder order →
    (∀ bytes i, s.nextDone = some (.request bytes) → decodeClient bytes = .ok i →
      ¬ WritesTransmitControl mcp2515 i) →
    step s = .next t →
    ∃ n ≤ order.length, t.chip.sentSlots = s.chip.sentSlots ++ order.take n ∧
      (s.nextDone = some (.request [0x10]) ∨ s.nextDone = some (.request [0x20]) → t.SendsInOrder []) ∧
      (∀ operands, s.nextDone = some (.request (0x30 :: operands)) → t.response = some ⟨.ok, []⟩ →
        ∃ x, t.SendsInOrder (order.drop n ++ [x])) ∧
      (s.nextDone ≠ some (.request [0x10]) → s.nextDone ≠ some (.request [0x20]) →
        (∀ operands, s.nextDone = some (.request (0x30 :: operands)) → t.response ≠ some ⟨.ok, []⟩) →
        t.SendsInOrder (order.drop n))

/-- The default chip starts the oldest pending frame as it stands in its slot (44_can_tx.md R458, R459); when it has been
sent its slot is free, and when it fails it stays pending; a rewrite of a priority leaves the frame on the bus there
(R460). In which modes the chip sends is its family's (assumption 18). -/
def Obligations.ChipSendsTheOldestFrame : Prop :=
  ∀ (s : State) (x : Fin 3) (order : List (Fin 3)), s.cfg.chip = mcp2515 → s.SendsInOrder (x :: order) →
    (s.chip.onBus = none → s.chip.modeSends mcp2515 = true →
      let t := outsideAct (.chip .start) s
      t.chip.onBus = some ⟨x, s.chip.slotBytes mcp2515 x⟩ ∧ t.chip.sent = s.chip.sent ∧ t.SendsInOrder (x :: order)) ∧
    (∀ f, s.chip.onBus = some f →
      f.slot = x ∧
      (let t := outsideAct (.chip .complete) s
       t.chip.sent = s.chip.sent ++ [f] ∧ t.chip.onBus = none ∧ t.SendsInOrder order) ∧
      (let t := outsideAct (.chip .lose) s
       t.chip.sent = s.chip.sent ∧ t.chip.onBus = none ∧ t.SendsInOrder (x :: order)) ∧
      (s.during = [] → ∀ (y : Fin 3) (p : Byte), ∃ t,
        exec (.spiBitModify (BitVec.ofNat 8 (0x30 + 0x10 * y.val)) 0x03 p) s = .next t ∧
          t.chip.onBus = some f ∧ t.chip.sent = s.chip.sent ∧
          (∀ z, t.chip.txreq mcp2515 z = s.chip.txreq mcp2515 z) ∧ t.chip.txp mcp2515 y = p.toNat % 4))

/-- An accepted frame stands in a slot of the default chip that was free, and is pending there as the chip will send it:
its identifier image, its DLC byte and its payload, in the bits of the operand (44_can_tx.md R455 to R457). -/
def Obligations.AcceptedFrameStandsInTheSlot : Prop :=
  ∀ (s t : State) (flags : Byte) (id : BitVec 32) (dlc : Byte) (data : Vector Byte 8),
    s.cfg.chip = mcp2515 → s.during = [] →
    exec (.canSend flags id dlc data) s = .next t → t.response = some ⟨.ok, []⟩ →
    ∃ x, s.chip.txreq mcp2515 x = false ∧ t.chip.txreq mcp2515 x = true ∧
      t.chip.slotBytes mcp2515 x = operandBytes flags id dlc data

/-! ### CAN reception -/

/-- CAN_RECEIVE with the default CHIP (45_can_rx.md R500 to R507): with no pin asserted nothing but the response; else
the buffer of the asserted pin, the one not serviced last when both are, is read in one transaction and freed, with the
clock's value at the choice, copied as it is (assumption 10). That the chip's data bytes of buffer b, which the result
shows, stand from 0x66 + 0x10 b on is the chip family's (assumption 39). In a state after a raw write that
70_reset_and_hazards.md R728 names, that the pins and the chip follow the registers as written is the model's choice
(assumption 41). -/
def Obligations.CanReceiveEffect : Prop :=
  ∀ s : State, s.cfg.chip = mcp2515 →
    let u := letOutside (letOutside s)
    let r0 := (letOutside s).pinNow .rx0
    let r1 := u.pinNow .rx1
    (r0 = false → r1 = false → exec .canReceive s = .next { u with response := some ⟨.no, []⟩ }) ∧
    (∀ b : Fin 2,
      ((r0 = true ∧ r1 = true ∧ b = 1 - s.can.rxLast) ∨ (r0 = true ∧ r1 = false ∧ b = 0) ∨
        (r0 = false ∧ r1 = true ∧ b = 1)) →
      let c := (letOutside u).chip
      let h := c.rxHeader mcp2515 b
      let p := if h.rtr then 0 else min h.dlc.toNat 8
      ∃ t, exec .canReceive s = .next t ∧ t.can = { s.can with rxLast := b } ∧
        t.sentOnBus = s.sentOnBus ++ [BitVec.ofNat 8 (0x90 + 4 * b.val) :: List.replicate (5 + p) 0x00] ∧
        t.chip = c.release mcp2515 b ∧
        t.response = some ⟨.ok,
          [(if h.ext then 0x01 else 0x00) ||| (if h.rtr then 0x02 else 0x00), h.id.extractLsb' 24 8,
            h.id.extractLsb' 16 8, h.id.extractLsb' 8 8, h.id.extractLsb' 0 8, h.dlc.zeroExtend 8] ++
          (List.range 8).map (fun j => if j < p then c.cell (0x66 + 0x10 * b.val + j) else 0x00) ++
          [s.clock.extractLsb' 8 8, s.clock.extractLsb' 0 8]⟩)

/-- What the receiver decodes, in the bits of the five header bytes (45_can_rx.md R504), what the transmitter's image
carries, in the bits of the identifier (44_can_tx.md R457), and that the first undoes the second: an extended frame from
its image and DLC byte, a standard frame from its image with the remote request in SIDL bit 4. -/
def Obligations.HeaderDecodesTheImage : Prop :=
  (∀ h0 h1 h2 h3 h4 : Byte, decodeHeader h0 h1 h2 h3 h4 =
    if h1.getLsbD 3 then
      ⟨true, h4.getLsbD 6, (0 : BitVec 3) ++ h0 ++ h1.extractLsb' 5 3 ++ h1.extractLsb' 0 2 ++ h2 ++ h3,
        h4.extractLsb' 0 4⟩
    else ⟨false, h1.getLsbD 4, (0 : BitVec 21) ++ h0 ++ h1.extractLsb' 5 3, h4.extractLsb' 0 4⟩) ∧
  (∀ id : BitVec 29,
    idImage true id = [id.extractLsb' 21 8, id.extractLsb' 18 3 ++ (0b010 : BitVec 3) ++ id.extractLsb' 16 2,
      id.extractLsb' 8 8, id.extractLsb' 0 8] ∧
    idImage false id = [id.extractLsb' 3 8, id.extractLsb' 0 3 ++ (0b00000 : BitVec 5), 0x00, 0x00]) ∧
  (∀ (rtr : Bool) (id : BitVec 29) (dlc : BitVec 4),
    decodeHeader ((idImage true id).getD 0 0) ((idImage true id).getD 1 0) ((idImage true id).getD 2 0)
      ((idImage true id).getD 3 0) (dlcByte rtr (dlc.zeroExtend 8)) = ⟨true, rtr, id.zeroExtend 32, dlc⟩) ∧
  (∀ (rtr : Bool) (id : BitVec 11) (dlc : BitVec 4) (h2 h3 : Byte),
    decodeHeader ((idImage false (id.zeroExtend 29)).getD 0 0)
      ((idImage false (id.zeroExtend 29)).getD 1 0 ||| (if rtr then 0x10 else 0x00)) h2 h3 (dlc.zeroExtend 8) =
        ⟨false, rtr, id.zeroExtend 32, dlc⟩)

/-- Into which buffer of the default chip an arriving frame goes (43_can_config.md R409, 45_can_rx.md R510, R511): what
buffer 0 accepts into buffer 0, or, that being full, with RXB0CTRL.BUKT into buffer 1; what only buffer 1 accepts into
buffer 1; and nothing that happens in the chip changes a full buffer (60_exceptions.md R613). After a mask that leaves
the extended-only bits out, and any code, a standard and an extended frame whose identifiers agree in their upper 11
bits are accepted alike (43_can_config.md R410). That a buffer's bytes stand from 0x61 + 0x10 b on is the chip family's
(assumption 39). In which modes the chip receives, and what becomes of a frame that finds no buffer, are its family's
and the model's (assumptions 18, 19); that this also holds after a raw write of CANINTF.RX0IF, RX1IF or RXB0CTRL.BUKT
is the model's choice (assumption 41). -/
def Obligations.ArrivingFramesAreSortedIntoFreeBuffers : Prop :=
  (∀ (c : Chip) (e : ChipEvent) (n : Nat) (b : Fin 2), c.rxFull mcp2515 b = true →
    SameBuffer c (c.act mcp2515 e n) b) ∧
  (∀ (c : Chip) (f : CanFrame) (n : Nat), c.modeReceives mcp2515 = true →
    let d := c.act mcp2515 (.receive f) n
    let first := c.accepts0 mcp2515 f n
    let second := c.accepts1 mcp2515 f n
    let rolls := (c.reg 0x60).getLsbD 2
    (first = true → c.rxFull mcp2515 0 = false → FrameReceived d 0 f ∧ SameBuffer c d 1) ∧
    (first = true → c.rxFull mcp2515 0 = true → rolls = true → c.rxFull mcp2515 1 = false →
      FrameReceived d 1 f ∧ SameBuffer c d 0) ∧
    (first = false → second = true → c.rxFull mcp2515 1 = false → FrameReceived d 1 f ∧ SameBuffer c d 0) ∧
    (first = false → second = false → d = c)) ∧
  (∀ (s t u : State) (m0 m1 m2 m3 c0 c1 c2 c3 : Byte), s.cfg.chip = mcp2515 → s.during = [] →
    s.chip.inConfigMode mcp2515 = true → m1.extractLsb' 0 2 = 3 → m2 = 0xFF → m3 = 0xFF →
    exec (.canSetMask m0 m1 m2 m3) s = .next t → exec (.canSetCode c0 c1 c2 c3) t = .next u →
    ∀ (f g : CanFrame) (n k : Nat), f.ext = false → g.ext = true → f.id.extractLsb' 0 11 = g.id.extractLsb' 18 11 →
      u.chip.accepts0 mcp2515 f n = u.chip.accepts0 mcp2515 g k ∧
        u.chip.accepts1 mcp2515 f n = u.chip.accepts1 mcp2515 g k)

/-! ### The SIE -/

/-- The SIE changes no descriptor that the block owns and no byte of its buffer, but for the endpoint-0 OUT buffer, into
which it stores every SETUP packet (60_exceptions.md R612 items 2, 3). -/
def Obligations.SieSparesWhatTheBlockOwns : Prop :=
  ∀ (s : State) (t : Token) (b : Buf), s.Inv → s.Ep0InStep → (s.bd b).own = .sw →
    (∀ p, t = .setup s.dev.addr p → b ≠ .ep0out) →
    (sieSettle (sieToken t s)).bd b = s.bd b ∧
      ∀ off < 64, (sieSettle (sieToken t s)).byteAt b off = s.byteAt b off

/-- How the SIE answers every token, with what it then settles (60_exceptions.md R612). A SETUP is acknowledged in
every state, stored in the endpoint-0 OUT buffer, whoever owns that, and takes back an armed IN packet. Until the block
has handled it, and while a bus reset waits for the block, endpoint 0 answers other tokens with NAK; else, in protocol
stall, with STALL; else an armed IN packet goes out and an OUT packet is stored, each with its event; else NAK. A
halted bulk endpoint answers STALL, one that is not armed NAK; the notification endpoint answers every IN token with
NAK (10_state.md R50); a bulk endpoint with an armed buffer completes. A bus reset returns every buffer. The model's
choices: that all stays with the block while a bus reset waits (assumption 8), NAK and not item 4's STALL of a halted
notification endpoint (assumption 38), EP_IN before EP_NOTIFY if the two are equal (assumption 30), that a bus reset
changes no byte of a buffer (assumption 42), and no answer for what no item names (assumption 25). -/
def Obligations.SieAnswersTokens : Prop :=
  ∀ s : State, s.Inv → s.Ep0InStep →
    let after (t : Token) : State := sieSettle (sieToken t s)
    let only (t : Token) (a : Answer) : Prop := after t = { s with answer := some a }
    let posted (e : SieEvent) : Sie := { s.sie with queue := s.sie.queue ++ [e] }
    let stores (t : State) (base : Nat) (data : List Byte) : Prop :=
      t.mem.readList base data.length = data ∧
        ∀ a, a < base ∨ base + data.length ≤ a → t.mem.read a = s.mem.read a
    (∀ p : Vector Byte 8, let t := after (.setup s.dev.addr p)
      t = { s with
        mem := t.mem
        bds := { s.bds with ep0out := ⟨.sw, 8⟩, ep0setup := true, ep0in := ⟨.sw, s.bds.ep0in.count⟩ }
        sie := { posted .doneEp0out with toggles := { s.sie.toggles with ep0in := true, ep0out := true } }
        answer := some .ack } ∧
      stores t Buf.ep0out.base p.toList) ∧
    (s.bds.ep0setup = true ∨ .busReset ∈ s.sie.queue → ∀ data,
      only (.inToken s.dev.addr 0) .nak ∧ only (.outToken s.dev.addr 0 data) .nak) ∧
    (s.ctl.stall = true → (s.bd .ep0out).own = .sie → ∀ data,
      only (.inToken s.dev.addr 0) .stall ∧ only (.outToken s.dev.addr 0 data) .stall) ∧
    (s.ctl.stall = false →
      ((s.bd .ep0in).own = .sie → after (.inToken s.dev.addr 0) = { s with
        bds := { s.bds with ep0in := ⟨.sw, s.bds.ep0in.count⟩ }
        sie := { posted .doneEp0in with toggles := { s.sie.toggles with ep0in := !s.sie.toggles.ep0in } }
        answer := some (.data s.sie.toggles.ep0in (s.mem.readList Buf.ep0in.base s.bds.ep0in.count)) }) ∧
      ((s.bd .ep0out).own = .sie → ∀ data, data.length ≤ s.cfg.ep0Size.bytes →
        let t := after (.outToken s.dev.addr 0 data)
        t = { s with
          mem := t.mem
          bds := { s.bds with ep0out := ⟨.sw, data.length⟩ }
          sie := { posted .doneEp0out with toggles := { s.sie.toggles with ep0out := !s.sie.toggles.ep0out } }
          answer := some .ack } ∧
        stores t Buf.ep0out.base data) ∧
      ((s.bd .ep0in).own = .sw → only (.inToken s.dev.addr 0) .nak) ∧
      ((s.bd .ep0out).own = .sw → ∀ data, only (.outToken s.dev.addr 0 data) .nak)) ∧
    (∀ ep : BitVec 4, ep ≠ 0 → 0x80 ||| ep.zeroExtend 8 = s.cfg.epIn →
      (s.dev.halt.in_ = true → only (.inToken s.dev.addr ep) .stall) ∧
      (s.dev.halt.in_ = false → (s.bd (.bin s.sie.nextIn)).own = .sw → only (.inToken s.dev.addr ep) .nak) ∧
      (s.dev.halt.in_ = false → (s.bd (.bin s.sie.nextIn)).own = .sie → after (.inToken s.dev.addr ep) = { s with
        bds := s.bds.set (.bin s.sie.nextIn) ⟨.sw, (s.bd (.bin s.sie.nextIn)).count⟩
        sie := { posted (.doneBin s.sie.nextIn) with
          toggles := { s.sie.toggles with in_ := !s.sie.toggles.in_ }, nextIn := 1 - s.sie.nextIn }
        answer := some (.data s.sie.toggles.in_
          (s.mem.readList (Buf.bin s.sie.nextIn).base (s.bd (.bin s.sie.nextIn)).count)) })) ∧
    (∀ ep : BitVec 4, ep ≠ 0 → ep.zeroExtend 8 = s.cfg.epOut → ∀ data,
      (s.dev.halt.out = true → only (.outToken s.dev.addr ep data) .stall) ∧
      (s.dev.halt.out = false → (s.bd (.bout s.sie.nextOut)).own = .sw → only (.outToken s.dev.addr ep data) .nak) ∧
      (s.dev.halt.out = false → (s.bd (.bout s.sie.nextOut)).own = .sie → data.length ≤ s.cfg.bulkSize.val →
        let t := after (.outToken s.dev.addr ep data)
        t = { s with
          mem := t.mem
          bds := s.bds.set (.bout s.sie.nextOut) ⟨.sw, data.length⟩
          sie := { posted (.doneBout s.sie.nextOut) with
            toggles := { s.sie.toggles with out := !s.sie.toggles.out }, nextOut := 1 - s.sie.nextOut }
          answer := some .ack } ∧
        stores t (Buf.bout s.sie.nextOut).base data)) ∧
    (∀ ep : BitVec 4, ep ≠ 0 → 0x80 ||| ep.zeroExtend 8 = s.cfg.epNotify → s.cfg.epNotify ≠ s.cfg.epIn →
      only (.inToken s.dev.addr ep) .nak) ∧
    (let t := after .busReset
     t = { s with bds := t.bds, sie := posted .busReset, answer := some .silent } ∧
       t.bds.ep0setup = s.bds.ep0setup ∧ ∀ b, (t.bd b).own = .sw) ∧
    (∀ a ep data p, a ≠ s.dev.addr →
      only (.inToken a ep) .silent ∧ only (.outToken a ep data) .silent ∧ only (.setup a p) .silent)
end

