-- ==== Sys2Proof/Laws/Memory.lean ====
section
/-! SUPPORT. Reading after writing, and the canonical form, for every operation of memory. -/

namespace Sys2Proof.Machine

/-! ### One byte -/

theorem Memory.read_below {m : Memory} : ∀ {lo x : Nat}, m.wfFrom lo = true → x < lo → m.read x = unlistedByte := by
  induction m with
  | nil => intros; rfl
  | cons c m ih =>
    obtain ⟨a, b⟩ := c
    intro lo x h hx
    simp only [Memory.wfFrom, Bool.and_eq_true, decide_eq_true_eq] at h
    rw [Memory.read, if_neg (by omega)]
    exact ih h.2 (by omega)

theorem Memory.read_write_same {m : Memory} (x : Nat) (v : Byte) :
    ∀ {lo : Nat}, m.wfFrom lo = true → (m.write x v).read x = v := by
  induction m with
  | nil =>
    intro lo _
    by_cases hv : v = unlistedByte <;> simp [Memory.write, Memory.read, hv]
  | cons c m ih =>
    obtain ⟨a, b⟩ := c
    intro lo h
    have h' := h
    simp only [Memory.wfFrom, Bool.and_eq_true, decide_eq_true_eq] at h
    simp only [Memory.write]
    by_cases hxa : x < a
    · rw [if_pos hxa]
      by_cases hv : v = unlistedByte
      · rw [if_pos hv, Memory.read, if_neg (by omega), Memory.read_below h.2 (by omega), hv]
      · rw [if_neg hv, Memory.read, if_pos rfl]
    · rw [if_neg hxa]
      by_cases hxe : x = a
      · rw [if_pos hxe]
        by_cases hv : v = unlistedByte
        · rw [if_pos hv, Memory.read_below h.2 (by omega), hv]
        · rw [if_neg hv, Memory.read, if_pos rfl]
      · rw [if_neg hxe, Memory.read, if_neg (by omega)]
        exact ih h.2

theorem Memory.read_write_other {m : Memory} (x y : Nat) (v : Byte) (hxy : y ≠ x) :
    ∀ {lo : Nat}, m.wfFrom lo = true → (m.write x v).read y = m.read y := by
  induction m with
  | nil =>
    intro lo _
    by_cases hv : v = unlistedByte
    · simp [Memory.write, hv]
    · simp [Memory.write, Memory.read, hv, Ne.symm hxy]
  | cons c m ih =>
    obtain ⟨a, b⟩ := c
    intro lo h
    simp only [Memory.wfFrom, Bool.and_eq_true, decide_eq_true_eq] at h
    simp only [Memory.write]
    by_cases hxa : x < a
    · rw [if_pos hxa]
      by_cases hv : v = unlistedByte
      · rw [if_pos hv]
      · rw [if_neg hv, Memory.read, if_neg (Ne.symm hxy)]
    · rw [if_neg hxa]
      by_cases hxe : x = a
      · rw [if_pos hxe]
        by_cases hv : v = unlistedByte
        · rw [if_pos hv, Memory.read, if_neg (by omega)]
        · rw [if_neg hv, Memory.read, Memory.read, if_neg (Ne.symm hxy), if_neg (by omega)]
      · rw [if_neg hxe, Memory.read, Memory.read, ih h.2]

theorem Memory.wfFrom_mono {m : Memory} {lo lo' : Nat} (hl : lo' ≤ lo) (h : m.wfFrom lo = true) :
    m.wfFrom lo' = true := by
  cases m with
  | nil => rfl
  | cons c m =>
    simp only [Memory.wfFrom, Bool.and_eq_true, decide_eq_true_eq] at h ⊢
    exact ⟨⟨by omega, h.1.2⟩, h.2⟩

theorem Memory.wfFrom_write {m : Memory} (x : Nat) (v : Byte) :
    ∀ {lo : Nat}, lo ≤ x → m.wfFrom lo = true → (m.write x v).wfFrom lo = true := by
  induction m with
  | nil =>
    intro lo hlo _
    by_cases hv : v = unlistedByte <;> simp [Memory.write, Memory.wfFrom, hv, hlo]
  | cons c m ih =>
    obtain ⟨a, b⟩ := c
    intro lo hlo h
    have hcons := h
    simp only [Memory.wfFrom, Bool.and_eq_true, decide_eq_true_eq] at h
    obtain ⟨⟨hla, hb⟩, hm⟩ := h
    simp only [Memory.write]
    by_cases hxa : x < a
    · rw [if_pos hxa]
      by_cases hv : v = unlistedByte
      · rw [if_pos hv]; exact hcons
      · rw [if_neg hv]
        simp only [Memory.wfFrom, Bool.and_eq_true, decide_eq_true_eq]
        exact ⟨⟨hlo, by simpa using hv⟩, ⟨by omega, hb⟩, hm⟩
    · rw [if_neg hxa]
      by_cases hxe : x = a
      · rw [if_pos hxe]
        by_cases hv : v = unlistedByte
        · rw [if_pos hv]; exact Memory.wfFrom_mono (by omega) hm
        · rw [if_neg hv]
          simp only [Memory.wfFrom, Bool.and_eq_true, decide_eq_true_eq]
          exact ⟨⟨hlo, by simpa using hv⟩, hxe ▸ hm⟩
      · rw [if_neg hxe]
        simp only [Memory.wfFrom, Bool.and_eq_true, decide_eq_true_eq]
        exact ⟨⟨hla, hb⟩, ih (by omega) hm⟩

/-- Writing one byte keeps the canonical form. -/
theorem Memory.wf_write {m : Memory} (x : Nat) (v : Byte) (h : m.wf = true) : (m.write x v).wf = true :=
  Memory.wfFrom_write x v (Nat.zero_le x) h

/-! ### Several bytes -/

/-- Writing a list of bytes keeps the canonical form. -/
theorem Memory.wf_writeList (vs : List Byte) :
    ∀ {m : Memory} (x : Nat), m.wf = true → (m.writeList x vs).wf = true := by
  induction vs with
  | nil => intro m x h; exact h
  | cons v vs ih => intro m x h; exact ih (x + 1) (Memory.wf_write x v h)

/-- What every address holds after a list of bytes is written. -/
theorem Memory.read_writeList (vs : List Byte) :
    ∀ {m : Memory} (x y : Nat), m.wf = true →
      (m.writeList x vs).read y = if x ≤ y then (vs[y - x]?).getD (m.read y) else m.read y := by
  induction vs with
  | nil => intro m x y _; simp [Memory.writeList]
  | cons v vs ih =>
    intro m x y h
    rw [Memory.writeList, ih (x + 1) y (Memory.wf_write x v h)]
    by_cases hxy : y = x
    · subst hxy
      rw [if_neg (by omega), if_pos (Nat.le_refl y), Nat.sub_self]
      simpa using Memory.read_write_same y v h
    · rw [Memory.read_write_other x y v hxy h]
      by_cases hle : x ≤ y
      · rw [if_pos (by omega), if_pos hle]
        obtain ⟨d, rfl⟩ : ∃ d, y = x + 1 + d := ⟨y - (x + 1), by omega⟩
        rw [show x + 1 + d - (x + 1) = d by omega, show x + 1 + d - x = d + 1 by omega]
        rfl
      · rw [if_neg (by omega), if_neg hle]

@[simp] theorem Memory.length_readList (m : Memory) : ∀ (n x : Nat), (m.readList x n).length = n
  | 0, _ => rfl
  | n + 1, x => by simp [Memory.readList, Memory.length_readList m n]

/-- The bytes of a range, one by one. -/
theorem Memory.getElem_readList (m : Memory) :
    ∀ (n x i : Nat) (h : i < (m.readList x n).length), (m.readList x n)[i] = m.read (x + i)
  | 0, _, _, h => absurd h (by simp [Memory.readList])
  | n + 1, x, 0, _ => rfl
  | n + 1, x, i + 1, h => by
    have hi : i < (m.readList (x + 1) n).length := by simpa [Memory.readList] using h
    simpa [Memory.readList, Nat.add_assoc, Nat.add_comm 1 i] using Memory.getElem_readList m n (x + 1) i hi

/-- A range that holds the same bytes reads the same. -/
theorem Memory.readList_congr {m m' : Memory} :
    ∀ (n x : Nat), (∀ y, x ≤ y → y < x + n → m'.read y = m.read y) → m'.readList x n = m.readList x n
  | 0, _, _ => rfl
  | n + 1, x, h => by
    rw [Memory.readList, Memory.readList, h x (Nat.le_refl x) (by omega),
      Memory.readList_congr n (x + 1) (fun y h1 h2 => h y (by omega) (by omega))]

/-- A range is its first part and the rest. -/
theorem Memory.readList_append (m : Memory) :
    ∀ (n k x : Nat), m.readList x (n + k) = m.readList x n ++ m.readList (x + n) k
  | 0, k, x => by simp [Memory.readList]
  | n + 1, k, x => by
    rw [show n + 1 + k = n + k + 1 by omega, Memory.readList, Memory.readList, List.cons_append,
      Memory.readList_append m n k (x + 1), show x + 1 + n = x + (n + 1) by omega]

/-- Reading back what was written. -/
theorem Memory.readList_writeList_same {m : Memory} (x : Nat) (vs : List Byte) (h : m.wf = true) :
    (m.writeList x vs).readList x vs.length = vs := by
  refine List.ext_getElem (by simp) fun i h1 h2 => ?_
  rw [Memory.getElem_readList, Memory.read_writeList vs x (x + i) h, if_pos (by omega),
    show x + i - x = i by omega, List.getElem?_eq_getElem h2]
  rfl

end Sys2Proof.Machine
end

