-- ==== Sys2Proof/Laws/State.lean ====
section
/-! SUPPORT. One lemma per field of State and named update: what the update leaves in the field. -/

namespace Sys2Proof.Machine

/-! ### State.setBd -/

@[simp] theorem State.setBd_cfg (s : State) (b : Buf) (x : Bd) : (s.setBd b x).cfg = s.cfg := rfl
@[simp] theorem State.setBd_dev (s : State) (b : Buf) (x : Bd) : (s.setBd b x).dev = s.dev := rfl
@[simp] theorem State.setBd_ctl (s : State) (b : Buf) (x : Bd) : (s.setBd b x).ctl = s.ctl := rfl
@[simp] theorem State.setBd_bds (s : State) (b : Buf) (x : Bd) : (s.setBd b x).bds = s.bds.set b x := rfl
@[simp] theorem State.setBd_mem (s : State) (b : Buf) (x : Bd) : (s.setBd b x).mem = s.mem := rfl
@[simp] theorem State.setBd_bin (s : State) (b : Buf) (x : Bd) : (s.setBd b x).bin = s.bin := rfl
@[simp] theorem State.setBd_bout (s : State) (b : Buf) (x : Bd) : (s.setBd b x).bout = s.bout := rfl
@[simp] theorem State.setBd_can (s : State) (b : Buf) (x : Bd) : (s.setBd b x).can = s.can := rfl
@[simp] theorem State.setBd_serial (s : State) (b : Buf) (x : Bd) : (s.setBd b x).serial = s.serial := rfl
@[simp] theorem State.setBd_sie (s : State) (b : Buf) (x : Bd) : (s.setBd b x).sie = s.sie := rfl
@[simp] theorem State.setBd_chip (s : State) (b : Buf) (x : Bd) : (s.setBd b x).chip = s.chip := rfl
@[simp] theorem State.setBd_pins (s : State) (b : Buf) (x : Bd) : (s.setBd b x).pins = s.pins := rfl
@[simp] theorem State.setBd_clock (s : State) (b : Buf) (x : Bd) : (s.setBd b x).clock = s.clock := rfl
@[simp] theorem State.setBd_inputs (s : State) (b : Buf) (x : Bd) : (s.setBd b x).inputs = s.inputs := rfl
@[simp] theorem State.setBd_bench (s : State) (b : Buf) (x : Bd) : (s.setBd b x).bench = s.bench := rfl
@[simp] theorem State.setBd_during (s : State) (b : Buf) (x : Bd) : (s.setBd b x).during = s.during := rfl
@[simp] theorem State.setBd_response (s : State) (b : Buf) (x : Bd) : (s.setBd b x).response = s.response := rfl
@[simp] theorem State.setBd_txns (s : State) (b : Buf) (x : Bd) : (s.setBd b x).txns = s.txns := rfl
@[simp] theorem State.setBd_pulses (s : State) (b : Buf) (x : Bd) : (s.setBd b x).pulses = s.pulses := rfl
@[simp] theorem State.setBd_answer (s : State) (b : Buf) (x : Bd) : (s.setBd b x).answer = s.answer := rfl
@[simp] theorem State.setBd_draws (s : State) (b : Buf) (x : Bd) : (s.setBd b x).draws = s.draws := rfl

/-! ### State.draw -/

@[simp] theorem State.draw_cfg (s : State) (n : Nat) : (s.draw n).cfg = s.cfg := rfl
@[simp] theorem State.draw_dev (s : State) (n : Nat) : (s.draw n).dev = s.dev := rfl
@[simp] theorem State.draw_ctl (s : State) (n : Nat) : (s.draw n).ctl = s.ctl := rfl
@[simp] theorem State.draw_bds (s : State) (n : Nat) : (s.draw n).bds = s.bds := rfl
@[simp] theorem State.draw_mem (s : State) (n : Nat) : (s.draw n).mem = s.mem := rfl
@[simp] theorem State.draw_bin (s : State) (n : Nat) : (s.draw n).bin = s.bin := rfl
@[simp] theorem State.draw_bout (s : State) (n : Nat) : (s.draw n).bout = s.bout := rfl
@[simp] theorem State.draw_can (s : State) (n : Nat) : (s.draw n).can = s.can := rfl
@[simp] theorem State.draw_serial (s : State) (n : Nat) : (s.draw n).serial = s.serial := rfl
@[simp] theorem State.draw_sie (s : State) (n : Nat) : (s.draw n).sie = s.sie := rfl
@[simp] theorem State.draw_chip (s : State) (n : Nat) : (s.draw n).chip = s.chip := rfl
@[simp] theorem State.draw_pins (s : State) (n : Nat) : (s.draw n).pins = s.pins := rfl
@[simp] theorem State.draw_clock (s : State) (n : Nat) : (s.draw n).clock = s.clock := rfl
@[simp] theorem State.draw_inputs (s : State) (n : Nat) : (s.draw n).inputs = s.inputs := rfl
@[simp] theorem State.draw_bench (s : State) (n : Nat) : (s.draw n).bench = s.bench := rfl
@[simp] theorem State.draw_during (s : State) (n : Nat) : (s.draw n).during = s.during := rfl
@[simp] theorem State.draw_response (s : State) (n : Nat) : (s.draw n).response = s.response := rfl
@[simp] theorem State.draw_txns (s : State) (n : Nat) : (s.draw n).txns = s.txns := rfl
@[simp] theorem State.draw_pulses (s : State) (n : Nat) : (s.draw n).pulses = s.pulses := rfl
@[simp] theorem State.draw_answer (s : State) (n : Nat) : (s.draw n).answer = s.answer := rfl
@[simp] theorem State.draw_draws (s : State) (n : Nat) : (s.draw n).draws = s.draws + n := rfl

/-! ### respond -/

@[simp] theorem respond_cfg (st : Status) (r : List Byte) (s : State) : (respond st r s).cfg = s.cfg := rfl
@[simp] theorem respond_dev (st : Status) (r : List Byte) (s : State) : (respond st r s).dev = s.dev := rfl
@[simp] theorem respond_ctl (st : Status) (r : List Byte) (s : State) : (respond st r s).ctl = s.ctl := rfl
@[simp] theorem respond_bds (st : Status) (r : List Byte) (s : State) : (respond st r s).bds = s.bds := rfl
@[simp] theorem respond_mem (st : Status) (r : List Byte) (s : State) : (respond st r s).mem = s.mem := rfl
@[simp] theorem respond_bin (st : Status) (r : List Byte) (s : State) : (respond st r s).bin = s.bin := rfl
@[simp] theorem respond_bout (st : Status) (r : List Byte) (s : State) : (respond st r s).bout = s.bout := rfl
@[simp] theorem respond_can (st : Status) (r : List Byte) (s : State) : (respond st r s).can = s.can := rfl
@[simp] theorem respond_serial (st : Status) (r : List Byte) (s : State) : (respond st r s).serial = s.serial := rfl
@[simp] theorem respond_sie (st : Status) (r : List Byte) (s : State) : (respond st r s).sie = s.sie := rfl
@[simp] theorem respond_chip (st : Status) (r : List Byte) (s : State) : (respond st r s).chip = s.chip := rfl
@[simp] theorem respond_pins (st : Status) (r : List Byte) (s : State) : (respond st r s).pins = s.pins := rfl
@[simp] theorem respond_clock (st : Status) (r : List Byte) (s : State) : (respond st r s).clock = s.clock := rfl
@[simp] theorem respond_inputs (st : Status) (r : List Byte) (s : State) : (respond st r s).inputs = s.inputs := rfl
@[simp] theorem respond_bench (st : Status) (r : List Byte) (s : State) : (respond st r s).bench = s.bench := rfl
@[simp] theorem respond_during (st : Status) (r : List Byte) (s : State) : (respond st r s).during = s.during := rfl
@[simp] theorem respond_response (st : Status) (r : List Byte) (s : State) :
    (respond st r s).response = some ⟨st, r⟩ := rfl
@[simp] theorem respond_txns (st : Status) (r : List Byte) (s : State) : (respond st r s).txns = s.txns := rfl
@[simp] theorem respond_pulses (st : Status) (r : List Byte) (s : State) : (respond st r s).pulses = s.pulses := rfl
@[simp] theorem respond_answer (st : Status) (r : List Byte) (s : State) : (respond st r s).answer = s.answer := rfl
@[simp] theorem respond_draws (st : Status) (r : List Byte) (s : State) : (respond st r s).draws = s.draws := rfl

/-! ### raiseStall -/

@[simp] theorem raiseStall_cfg (s : State) : (raiseStall s).cfg = s.cfg := rfl
@[simp] theorem raiseStall_dev (s : State) : (raiseStall s).dev = s.dev := rfl
@[simp] theorem raiseStall_ctl (s : State) : (raiseStall s).ctl = idleCtl true := rfl
@[simp] theorem raiseStall_bds (s : State) : (raiseStall s).bds = s.bds := rfl
@[simp] theorem raiseStall_mem (s : State) : (raiseStall s).mem = s.mem := rfl
@[simp] theorem raiseStall_bin (s : State) : (raiseStall s).bin = s.bin := rfl
@[simp] theorem raiseStall_bout (s : State) : (raiseStall s).bout = s.bout := rfl
@[simp] theorem raiseStall_can (s : State) : (raiseStall s).can = s.can := rfl
@[simp] theorem raiseStall_serial (s : State) : (raiseStall s).serial = s.serial := rfl
@[simp] theorem raiseStall_sie (s : State) : (raiseStall s).sie = s.sie := rfl
@[simp] theorem raiseStall_chip (s : State) : (raiseStall s).chip = s.chip := rfl
@[simp] theorem raiseStall_pins (s : State) : (raiseStall s).pins = s.pins := rfl
@[simp] theorem raiseStall_clock (s : State) : (raiseStall s).clock = s.clock := rfl
@[simp] theorem raiseStall_inputs (s : State) : (raiseStall s).inputs = s.inputs := rfl
@[simp] theorem raiseStall_bench (s : State) : (raiseStall s).bench = s.bench := rfl
@[simp] theorem raiseStall_during (s : State) : (raiseStall s).during = s.during := rfl
@[simp] theorem raiseStall_response (s : State) : (raiseStall s).response = s.response := rfl
@[simp] theorem raiseStall_txns (s : State) : (raiseStall s).txns = s.txns := rfl
@[simp] theorem raiseStall_pulses (s : State) : (raiseStall s).pulses = s.pulses := rfl
@[simp] theorem raiseStall_answer (s : State) : (raiseStall s).answer = s.answer := rfl
@[simp] theorem raiseStall_draws (s : State) : (raiseStall s).draws = s.draws := rfl

/-! ### leaveStall -/

@[simp] theorem leaveStall_cfg (s : State) : (leaveStall s).cfg = s.cfg := rfl
@[simp] theorem leaveStall_dev (s : State) : (leaveStall s).dev = s.dev := rfl
@[simp] theorem leaveStall_ctl (s : State) : (leaveStall s).ctl = idleCtl false := rfl
@[simp] theorem leaveStall_bds (s : State) : (leaveStall s).bds = s.bds := rfl
@[simp] theorem leaveStall_mem (s : State) : (leaveStall s).mem = s.mem := rfl
@[simp] theorem leaveStall_bin (s : State) : (leaveStall s).bin = s.bin := rfl
@[simp] theorem leaveStall_bout (s : State) : (leaveStall s).bout = s.bout := rfl
@[simp] theorem leaveStall_can (s : State) : (leaveStall s).can = s.can := rfl
@[simp] theorem leaveStall_serial (s : State) : (leaveStall s).serial = s.serial := rfl
@[simp] theorem leaveStall_sie (s : State) : (leaveStall s).sie = s.sie := rfl
@[simp] theorem leaveStall_chip (s : State) : (leaveStall s).chip = s.chip := rfl
@[simp] theorem leaveStall_pins (s : State) : (leaveStall s).pins = s.pins := rfl
@[simp] theorem leaveStall_clock (s : State) : (leaveStall s).clock = s.clock := rfl
@[simp] theorem leaveStall_inputs (s : State) : (leaveStall s).inputs = s.inputs := rfl
@[simp] theorem leaveStall_bench (s : State) : (leaveStall s).bench = s.bench := rfl
@[simp] theorem leaveStall_during (s : State) : (leaveStall s).during = s.during := rfl
@[simp] theorem leaveStall_response (s : State) : (leaveStall s).response = s.response := rfl
@[simp] theorem leaveStall_txns (s : State) : (leaveStall s).txns = s.txns := rfl
@[simp] theorem leaveStall_pulses (s : State) : (leaveStall s).pulses = s.pulses := rfl
@[simp] theorem leaveStall_answer (s : State) : (leaveStall s).answer = s.answer := rfl
@[simp] theorem leaveStall_draws (s : State) : (leaveStall s).draws = s.draws := rfl

/-! ### setHalt -/

@[simp] theorem setHalt_cfg (e : Endpoint) (v : Bool) (s : State) : (setHalt e v s).cfg = s.cfg := rfl
@[simp] theorem setHalt_dev (e : Endpoint) (v : Bool) (s : State) :
    (setHalt e v s).dev = { s.dev with halt := s.dev.halt.set e v } := rfl
@[simp] theorem setHalt_ctl (e : Endpoint) (v : Bool) (s : State) : (setHalt e v s).ctl = s.ctl := rfl
@[simp] theorem setHalt_bds (e : Endpoint) (v : Bool) (s : State) : (setHalt e v s).bds = s.bds := rfl
@[simp] theorem setHalt_mem (e : Endpoint) (v : Bool) (s : State) : (setHalt e v s).mem = s.mem := rfl
@[simp] theorem setHalt_bin (e : Endpoint) (v : Bool) (s : State) : (setHalt e v s).bin = s.bin := rfl
@[simp] theorem setHalt_bout (e : Endpoint) (v : Bool) (s : State) : (setHalt e v s).bout = s.bout := rfl
@[simp] theorem setHalt_can (e : Endpoint) (v : Bool) (s : State) : (setHalt e v s).can = s.can := rfl
@[simp] theorem setHalt_serial (e : Endpoint) (v : Bool) (s : State) : (setHalt e v s).serial = s.serial := rfl
@[simp] theorem setHalt_sie (e : Endpoint) (v : Bool) (s : State) : (setHalt e v s).sie = s.sie := rfl
@[simp] theorem setHalt_chip (e : Endpoint) (v : Bool) (s : State) : (setHalt e v s).chip = s.chip := rfl
@[simp] theorem setHalt_pins (e : Endpoint) (v : Bool) (s : State) : (setHalt e v s).pins = s.pins := rfl
@[simp] theorem setHalt_clock (e : Endpoint) (v : Bool) (s : State) : (setHalt e v s).clock = s.clock := rfl
@[simp] theorem setHalt_inputs (e : Endpoint) (v : Bool) (s : State) : (setHalt e v s).inputs = s.inputs := rfl
@[simp] theorem setHalt_bench (e : Endpoint) (v : Bool) (s : State) : (setHalt e v s).bench = s.bench := rfl
@[simp] theorem setHalt_during (e : Endpoint) (v : Bool) (s : State) : (setHalt e v s).during = s.during := rfl
@[simp] theorem setHalt_response (e : Endpoint) (v : Bool) (s : State) : (setHalt e v s).response = s.response := rfl
@[simp] theorem setHalt_txns (e : Endpoint) (v : Bool) (s : State) : (setHalt e v s).txns = s.txns := rfl
@[simp] theorem setHalt_pulses (e : Endpoint) (v : Bool) (s : State) : (setHalt e v s).pulses = s.pulses := rfl
@[simp] theorem setHalt_answer (e : Endpoint) (v : Bool) (s : State) : (setHalt e v s).answer = s.answer := rfl
@[simp] theorem setHalt_draws (e : Endpoint) (v : Bool) (s : State) : (setHalt e v s).draws = s.draws := rfl

/-! ### toggleReset -/

@[simp] theorem toggleReset_cfg (e : Endpoint) (s : State) : (toggleReset e s).cfg = s.cfg := rfl
@[simp] theorem toggleReset_dev (e : Endpoint) (s : State) : (toggleReset e s).dev = s.dev := rfl
@[simp] theorem toggleReset_ctl (e : Endpoint) (s : State) : (toggleReset e s).ctl = s.ctl := rfl
@[simp] theorem toggleReset_bds (e : Endpoint) (s : State) : (toggleReset e s).bds = s.bds := rfl
@[simp] theorem toggleReset_mem (e : Endpoint) (s : State) : (toggleReset e s).mem = s.mem := rfl
@[simp] theorem toggleReset_bin (e : Endpoint) (s : State) : (toggleReset e s).bin = s.bin := rfl
@[simp] theorem toggleReset_bout (e : Endpoint) (s : State) : (toggleReset e s).bout = s.bout := rfl
@[simp] theorem toggleReset_can (e : Endpoint) (s : State) : (toggleReset e s).can = s.can := rfl
@[simp] theorem toggleReset_serial (e : Endpoint) (s : State) : (toggleReset e s).serial = s.serial := rfl
@[simp] theorem toggleReset_sie (e : Endpoint) (s : State) :
    (toggleReset e s).sie = { s.sie with toggles := s.sie.toggles.restart e } := rfl
@[simp] theorem toggleReset_chip (e : Endpoint) (s : State) : (toggleReset e s).chip = s.chip := rfl
@[simp] theorem toggleReset_pins (e : Endpoint) (s : State) : (toggleReset e s).pins = s.pins := rfl
@[simp] theorem toggleReset_clock (e : Endpoint) (s : State) : (toggleReset e s).clock = s.clock := rfl
@[simp] theorem toggleReset_inputs (e : Endpoint) (s : State) : (toggleReset e s).inputs = s.inputs := rfl
@[simp] theorem toggleReset_bench (e : Endpoint) (s : State) : (toggleReset e s).bench = s.bench := rfl
@[simp] theorem toggleReset_during (e : Endpoint) (s : State) : (toggleReset e s).during = s.during := rfl
@[simp] theorem toggleReset_response (e : Endpoint) (s : State) : (toggleReset e s).response = s.response := rfl
@[simp] theorem toggleReset_txns (e : Endpoint) (s : State) : (toggleReset e s).txns = s.txns := rfl
@[simp] theorem toggleReset_pulses (e : Endpoint) (s : State) :
    (toggleReset e s).pulses = s.pulses ++ [.toggleReset e] := rfl
@[simp] theorem toggleReset_answer (e : Endpoint) (s : State) : (toggleReset e s).answer = s.answer := rfl
@[simp] theorem toggleReset_draws (e : Endpoint) (s : State) : (toggleReset e s).draws = s.draws := rfl

/-! ### ppReset -/

@[simp] theorem ppReset_cfg (s : State) : (ppReset s).cfg = s.cfg := rfl
@[simp] theorem ppReset_dev (s : State) : (ppReset s).dev = s.dev := rfl
@[simp] theorem ppReset_ctl (s : State) : (ppReset s).ctl = s.ctl := rfl
@[simp] theorem ppReset_bds (s : State) : (ppReset s).bds = s.bds := rfl
@[simp] theorem ppReset_mem (s : State) : (ppReset s).mem = s.mem := rfl
@[simp] theorem ppReset_bin (s : State) : (ppReset s).bin = s.bin := rfl
@[simp] theorem ppReset_bout (s : State) : (ppReset s).bout = s.bout := rfl
@[simp] theorem ppReset_can (s : State) : (ppReset s).can = s.can := rfl
@[simp] theorem ppReset_serial (s : State) : (ppReset s).serial = s.serial := rfl
@[simp] theorem ppReset_sie (s : State) : (ppReset s).sie = { s.sie with nextIn := 0, nextOut := 0 } := rfl
@[simp] theorem ppReset_chip (s : State) : (ppReset s).chip = s.chip := rfl
@[simp] theorem ppReset_pins (s : State) : (ppReset s).pins = s.pins := rfl
@[simp] theorem ppReset_clock (s : State) : (ppReset s).clock = s.clock := rfl
@[simp] theorem ppReset_inputs (s : State) : (ppReset s).inputs = s.inputs := rfl
@[simp] theorem ppReset_bench (s : State) : (ppReset s).bench = s.bench := rfl
@[simp] theorem ppReset_during (s : State) : (ppReset s).during = s.during := rfl
@[simp] theorem ppReset_response (s : State) : (ppReset s).response = s.response := rfl
@[simp] theorem ppReset_txns (s : State) : (ppReset s).txns = s.txns := rfl
@[simp] theorem ppReset_pulses (s : State) : (ppReset s).pulses = s.pulses ++ [.ppReset] := rfl
@[simp] theorem ppReset_answer (s : State) : (ppReset s).answer = s.answer := rfl
@[simp] theorem ppReset_draws (s : State) : (ppReset s).draws = s.draws := rfl

/-! ### State.exchange -/

@[simp] theorem State.exchange_cfg (s : State) (mosi reply : List Byte) (c : Chip) :
    (s.exchange mosi reply c).cfg = s.cfg := rfl
@[simp] theorem State.exchange_dev (s : State) (mosi reply : List Byte) (c : Chip) :
    (s.exchange mosi reply c).dev = s.dev := rfl
@[simp] theorem State.exchange_ctl (s : State) (mosi reply : List Byte) (c : Chip) :
    (s.exchange mosi reply c).ctl = s.ctl := rfl
@[simp] theorem State.exchange_bds (s : State) (mosi reply : List Byte) (c : Chip) :
    (s.exchange mosi reply c).bds = s.bds := rfl
@[simp] theorem State.exchange_mem (s : State) (mosi reply : List Byte) (c : Chip) :
    (s.exchange mosi reply c).mem = s.mem := rfl
@[simp] theorem State.exchange_bin (s : State) (mosi reply : List Byte) (c : Chip) :
    (s.exchange mosi reply c).bin = s.bin := rfl
@[simp] theorem State.exchange_bout (s : State) (mosi reply : List Byte) (c : Chip) :
    (s.exchange mosi reply c).bout = s.bout := rfl
@[simp] theorem State.exchange_can (s : State) (mosi reply : List Byte) (c : Chip) :
    (s.exchange mosi reply c).can = s.can := rfl
@[simp] theorem State.exchange_serial (s : State) (mosi reply : List Byte) (c : Chip) :
    (s.exchange mosi reply c).serial = ⟨true, s.cfg.spiCpol⟩ := rfl
@[simp] theorem State.exchange_sie (s : State) (mosi reply : List Byte) (c : Chip) :
    (s.exchange mosi reply c).sie = s.sie := rfl
@[simp] theorem State.exchange_chip (s : State) (mosi reply : List Byte) (c : Chip) :
    (s.exchange mosi reply c).chip = c := rfl
@[simp] theorem State.exchange_pins (s : State) (mosi reply : List Byte) (c : Chip) :
    (s.exchange mosi reply c).pins = s.pins := rfl
@[simp] theorem State.exchange_clock (s : State) (mosi reply : List Byte) (c : Chip) :
    (s.exchange mosi reply c).clock = s.clock := rfl
@[simp] theorem State.exchange_inputs (s : State) (mosi reply : List Byte) (c : Chip) :
    (s.exchange mosi reply c).inputs = s.inputs := rfl
@[simp] theorem State.exchange_bench (s : State) (mosi reply : List Byte) (c : Chip) :
    (s.exchange mosi reply c).bench = s.bench := rfl
@[simp] theorem State.exchange_during (s : State) (mosi reply : List Byte) (c : Chip) :
    (s.exchange mosi reply c).during = s.during := rfl
@[simp] theorem State.exchange_response (s : State) (mosi reply : List Byte) (c : Chip) :
    (s.exchange mosi reply c).response = s.response := rfl
@[simp] theorem State.exchange_txns (s : State) (mosi reply : List Byte) (c : Chip) :
    (s.exchange mosi reply c).txns = s.txns ++ [⟨mosi, freeBytes s.draws (mosi.length - reply.length) ++ reply⟩] := rfl
@[simp] theorem State.exchange_pulses (s : State) (mosi reply : List Byte) (c : Chip) :
    (s.exchange mosi reply c).pulses = s.pulses := rfl
@[simp] theorem State.exchange_answer (s : State) (mosi reply : List Byte) (c : Chip) :
    (s.exchange mosi reply c).answer = s.answer := rfl
@[simp] theorem State.exchange_draws (s : State) (mosi reply : List Byte) (c : Chip) :
    (s.exchange mosi reply c).draws = s.draws + (mosi.length - reply.length) := rfl

/-! ### State.answered -/

@[simp] theorem State.answered_cfg (s : State) (a : Answer) : (s.answered a).cfg = s.cfg := rfl
@[simp] theorem State.answered_dev (s : State) (a : Answer) : (s.answered a).dev = s.dev := rfl
@[simp] theorem State.answered_ctl (s : State) (a : Answer) : (s.answered a).ctl = s.ctl := rfl
@[simp] theorem State.answered_bds (s : State) (a : Answer) : (s.answered a).bds = s.bds := rfl
@[simp] theorem State.answered_mem (s : State) (a : Answer) : (s.answered a).mem = s.mem := rfl
@[simp] theorem State.answered_bin (s : State) (a : Answer) : (s.answered a).bin = s.bin := rfl
@[simp] theorem State.answered_bout (s : State) (a : Answer) : (s.answered a).bout = s.bout := rfl
@[simp] theorem State.answered_can (s : State) (a : Answer) : (s.answered a).can = s.can := rfl
@[simp] theorem State.answered_serial (s : State) (a : Answer) : (s.answered a).serial = s.serial := rfl
@[simp] theorem State.answered_sie (s : State) (a : Answer) : (s.answered a).sie = s.sie := rfl
@[simp] theorem State.answered_chip (s : State) (a : Answer) : (s.answered a).chip = s.chip := rfl
@[simp] theorem State.answered_pins (s : State) (a : Answer) : (s.answered a).pins = s.pins := rfl
@[simp] theorem State.answered_clock (s : State) (a : Answer) : (s.answered a).clock = s.clock := rfl
@[simp] theorem State.answered_inputs (s : State) (a : Answer) : (s.answered a).inputs = s.inputs := rfl
@[simp] theorem State.answered_bench (s : State) (a : Answer) : (s.answered a).bench = s.bench := rfl
@[simp] theorem State.answered_during (s : State) (a : Answer) : (s.answered a).during = s.during := rfl
@[simp] theorem State.answered_response (s : State) (a : Answer) : (s.answered a).response = s.response := rfl
@[simp] theorem State.answered_txns (s : State) (a : Answer) : (s.answered a).txns = s.txns := rfl
@[simp] theorem State.answered_pulses (s : State) (a : Answer) : (s.answered a).pulses = s.pulses := rfl
@[simp] theorem State.answered_answer (s : State) (a : Answer) : (s.answered a).answer = some a := rfl
@[simp] theorem State.answered_draws (s : State) (a : Answer) : (s.answered a).draws = s.draws := rfl

/-! ### post -/

@[simp] theorem post_cfg (ev : SieEvent) (s : State) : (post ev s).cfg = s.cfg := rfl
@[simp] theorem post_dev (ev : SieEvent) (s : State) : (post ev s).dev = s.dev := rfl
@[simp] theorem post_ctl (ev : SieEvent) (s : State) : (post ev s).ctl = s.ctl := rfl
@[simp] theorem post_bds (ev : SieEvent) (s : State) : (post ev s).bds = s.bds := rfl
@[simp] theorem post_mem (ev : SieEvent) (s : State) : (post ev s).mem = s.mem := rfl
@[simp] theorem post_bin (ev : SieEvent) (s : State) : (post ev s).bin = s.bin := rfl
@[simp] theorem post_bout (ev : SieEvent) (s : State) : (post ev s).bout = s.bout := rfl
@[simp] theorem post_can (ev : SieEvent) (s : State) : (post ev s).can = s.can := rfl
@[simp] theorem post_serial (ev : SieEvent) (s : State) : (post ev s).serial = s.serial := rfl
@[simp] theorem post_sie (ev : SieEvent) (s : State) :
    (post ev s).sie = { s.sie with queue := s.sie.queue ++ [ev] } := rfl
@[simp] theorem post_chip (ev : SieEvent) (s : State) : (post ev s).chip = s.chip := rfl
@[simp] theorem post_pins (ev : SieEvent) (s : State) : (post ev s).pins = s.pins := rfl
@[simp] theorem post_clock (ev : SieEvent) (s : State) : (post ev s).clock = s.clock := rfl
@[simp] theorem post_inputs (ev : SieEvent) (s : State) : (post ev s).inputs = s.inputs := rfl
@[simp] theorem post_bench (ev : SieEvent) (s : State) : (post ev s).bench = s.bench := rfl
@[simp] theorem post_during (ev : SieEvent) (s : State) : (post ev s).during = s.during := rfl
@[simp] theorem post_response (ev : SieEvent) (s : State) : (post ev s).response = s.response := rfl
@[simp] theorem post_txns (ev : SieEvent) (s : State) : (post ev s).txns = s.txns := rfl
@[simp] theorem post_pulses (ev : SieEvent) (s : State) : (post ev s).pulses = s.pulses := rfl
@[simp] theorem post_answer (ev : SieEvent) (s : State) : (post ev s).answer = s.answer := rfl
@[simp] theorem post_draws (ev : SieEvent) (s : State) : (post ev s).draws = s.draws := rfl

/-! ### giveUp -/

@[simp] theorem giveUp_cfg (b : Buf) (s : State) : (giveUp b s).cfg = s.cfg := rfl
@[simp] theorem giveUp_dev (b : Buf) (s : State) : (giveUp b s).dev = s.dev := rfl
@[simp] theorem giveUp_ctl (b : Buf) (s : State) : (giveUp b s).ctl = s.ctl := rfl
@[simp] theorem giveUp_bds (b : Buf) (s : State) : (giveUp b s).bds = s.bds.set b ((s.bd b).givenUp b.isOut) := rfl
@[simp] theorem giveUp_mem (b : Buf) (s : State) : (giveUp b s).mem = s.mem := rfl
@[simp] theorem giveUp_bin (b : Buf) (s : State) : (giveUp b s).bin = s.bin := rfl
@[simp] theorem giveUp_bout (b : Buf) (s : State) : (giveUp b s).bout = s.bout := rfl
@[simp] theorem giveUp_can (b : Buf) (s : State) : (giveUp b s).can = s.can := rfl
@[simp] theorem giveUp_serial (b : Buf) (s : State) : (giveUp b s).serial = s.serial := rfl
@[simp] theorem giveUp_sie (b : Buf) (s : State) : (giveUp b s).sie = s.sie := rfl
@[simp] theorem giveUp_chip (b : Buf) (s : State) : (giveUp b s).chip = s.chip := rfl
@[simp] theorem giveUp_pins (b : Buf) (s : State) : (giveUp b s).pins = s.pins := rfl
@[simp] theorem giveUp_clock (b : Buf) (s : State) : (giveUp b s).clock = s.clock := rfl
@[simp] theorem giveUp_inputs (b : Buf) (s : State) : (giveUp b s).inputs = s.inputs := rfl
@[simp] theorem giveUp_bench (b : Buf) (s : State) : (giveUp b s).bench = s.bench := rfl
@[simp] theorem giveUp_during (b : Buf) (s : State) : (giveUp b s).during = s.during := rfl
@[simp] theorem giveUp_response (b : Buf) (s : State) : (giveUp b s).response = s.response := rfl
@[simp] theorem giveUp_txns (b : Buf) (s : State) : (giveUp b s).txns = s.txns := rfl
@[simp] theorem giveUp_pulses (b : Buf) (s : State) : (giveUp b s).pulses = s.pulses := rfl
@[simp] theorem giveUp_answer (b : Buf) (s : State) : (giveUp b s).answer = s.answer := rfl
@[simp] theorem giveUp_draws (b : Buf) (s : State) : (giveUp b s).draws = s.draws := rfl

/-! ### giveUpAll -/

@[simp] theorem giveUpAll_cfg (s : State) : (giveUpAll s).cfg = s.cfg := rfl
@[simp] theorem giveUpAll_dev (s : State) : (giveUpAll s).dev = s.dev := rfl
@[simp] theorem giveUpAll_ctl (s : State) : (giveUpAll s).ctl = s.ctl := rfl
@[simp] theorem giveUpAll_mem (s : State) : (giveUpAll s).mem = s.mem := rfl
@[simp] theorem giveUpAll_bin (s : State) : (giveUpAll s).bin = s.bin := rfl
@[simp] theorem giveUpAll_bout (s : State) : (giveUpAll s).bout = s.bout := rfl
@[simp] theorem giveUpAll_can (s : State) : (giveUpAll s).can = s.can := rfl
@[simp] theorem giveUpAll_serial (s : State) : (giveUpAll s).serial = s.serial := rfl
@[simp] theorem giveUpAll_sie (s : State) : (giveUpAll s).sie = s.sie := rfl
@[simp] theorem giveUpAll_chip (s : State) : (giveUpAll s).chip = s.chip := rfl
@[simp] theorem giveUpAll_pins (s : State) : (giveUpAll s).pins = s.pins := rfl
@[simp] theorem giveUpAll_clock (s : State) : (giveUpAll s).clock = s.clock := rfl
@[simp] theorem giveUpAll_inputs (s : State) : (giveUpAll s).inputs = s.inputs := rfl
@[simp] theorem giveUpAll_bench (s : State) : (giveUpAll s).bench = s.bench := rfl
@[simp] theorem giveUpAll_during (s : State) : (giveUpAll s).during = s.during := rfl
@[simp] theorem giveUpAll_response (s : State) : (giveUpAll s).response = s.response := rfl
@[simp] theorem giveUpAll_txns (s : State) : (giveUpAll s).txns = s.txns := rfl
@[simp] theorem giveUpAll_pulses (s : State) : (giveUpAll s).pulses = s.pulses := rfl
@[simp] theorem giveUpAll_answer (s : State) : (giveUpAll s).answer = s.answer := rfl
@[simp] theorem giveUpAll_draws (s : State) : (giveUpAll s).draws = s.draws := rfl

/-! ### tick -/

@[simp] theorem tick_cfg (s : State) : (tick s).cfg = s.cfg := rfl
@[simp] theorem tick_dev (s : State) : (tick s).dev = s.dev := rfl
@[simp] theorem tick_ctl (s : State) : (tick s).ctl = s.ctl := rfl
@[simp] theorem tick_bds (s : State) : (tick s).bds = s.bds := rfl
@[simp] theorem tick_mem (s : State) : (tick s).mem = s.mem := rfl
@[simp] theorem tick_bin (s : State) : (tick s).bin = s.bin := rfl
@[simp] theorem tick_bout (s : State) : (tick s).bout = s.bout := rfl
@[simp] theorem tick_can (s : State) : (tick s).can = s.can := rfl
@[simp] theorem tick_serial (s : State) : (tick s).serial = s.serial := rfl
@[simp] theorem tick_sie (s : State) : (tick s).sie = s.sie := rfl
@[simp] theorem tick_chip (s : State) : (tick s).chip = s.chip := rfl
@[simp] theorem tick_pins (s : State) : (tick s).pins = s.pins := rfl
@[simp] theorem tick_clock (s : State) : (tick s).clock = nextTick s.clock := rfl
@[simp] theorem tick_inputs (s : State) : (tick s).inputs = s.inputs := rfl
@[simp] theorem tick_bench (s : State) : (tick s).bench = s.bench := rfl
@[simp] theorem tick_during (s : State) : (tick s).during = s.during := rfl
@[simp] theorem tick_response (s : State) : (tick s).response = s.response := rfl
@[simp] theorem tick_txns (s : State) : (tick s).txns = s.txns := rfl
@[simp] theorem tick_pulses (s : State) : (tick s).pulses = s.pulses := rfl
@[simp] theorem tick_answer (s : State) : (tick s).answer = s.answer := rfl
@[simp] theorem tick_draws (s : State) : (tick s).draws = s.draws := rfl

/-! ### State.setToggles -/

@[simp] theorem State.setToggles_cfg (s : State) (t : Toggles) : (s.setToggles t).cfg = s.cfg := rfl
@[simp] theorem State.setToggles_dev (s : State) (t : Toggles) : (s.setToggles t).dev = s.dev := rfl
@[simp] theorem State.setToggles_ctl (s : State) (t : Toggles) : (s.setToggles t).ctl = s.ctl := rfl
@[simp] theorem State.setToggles_bds (s : State) (t : Toggles) : (s.setToggles t).bds = s.bds := rfl
@[simp] theorem State.setToggles_mem (s : State) (t : Toggles) : (s.setToggles t).mem = s.mem := rfl
@[simp] theorem State.setToggles_bin (s : State) (t : Toggles) : (s.setToggles t).bin = s.bin := rfl
@[simp] theorem State.setToggles_bout (s : State) (t : Toggles) : (s.setToggles t).bout = s.bout := rfl
@[simp] theorem State.setToggles_can (s : State) (t : Toggles) : (s.setToggles t).can = s.can := rfl
@[simp] theorem State.setToggles_serial (s : State) (t : Toggles) : (s.setToggles t).serial = s.serial := rfl
@[simp] theorem State.setToggles_sie (s : State) (t : Toggles) :
    (s.setToggles t).sie = { s.sie with toggles := t } := rfl
@[simp] theorem State.setToggles_chip (s : State) (t : Toggles) : (s.setToggles t).chip = s.chip := rfl
@[simp] theorem State.setToggles_pins (s : State) (t : Toggles) : (s.setToggles t).pins = s.pins := rfl
@[simp] theorem State.setToggles_clock (s : State) (t : Toggles) : (s.setToggles t).clock = s.clock := rfl
@[simp] theorem State.setToggles_inputs (s : State) (t : Toggles) : (s.setToggles t).inputs = s.inputs := rfl
@[simp] theorem State.setToggles_bench (s : State) (t : Toggles) : (s.setToggles t).bench = s.bench := rfl
@[simp] theorem State.setToggles_during (s : State) (t : Toggles) : (s.setToggles t).during = s.during := rfl
@[simp] theorem State.setToggles_response (s : State) (t : Toggles) : (s.setToggles t).response = s.response := rfl
@[simp] theorem State.setToggles_txns (s : State) (t : Toggles) : (s.setToggles t).txns = s.txns := rfl
@[simp] theorem State.setToggles_pulses (s : State) (t : Toggles) : (s.setToggles t).pulses = s.pulses := rfl
@[simp] theorem State.setToggles_answer (s : State) (t : Toggles) : (s.setToggles t).answer = s.answer := rfl
@[simp] theorem State.setToggles_draws (s : State) (t : Toggles) : (s.setToggles t).draws = s.draws := rfl

/-! ### giveBack -/

@[simp] theorem giveBack_cfg (b : Buf) (s : State) : (giveBack b s).cfg = s.cfg := rfl
@[simp] theorem giveBack_dev (b : Buf) (s : State) : (giveBack b s).dev = s.dev := rfl
@[simp] theorem giveBack_ctl (b : Buf) (s : State) : (giveBack b s).ctl = s.ctl := rfl
@[simp] theorem giveBack_bds (b : Buf) (s : State) :
    (giveBack b s).bds = s.bds.set b { s.bd b with own := .sw } := rfl
@[simp] theorem giveBack_mem (b : Buf) (s : State) : (giveBack b s).mem = s.mem := rfl
@[simp] theorem giveBack_bin (b : Buf) (s : State) : (giveBack b s).bin = s.bin := rfl
@[simp] theorem giveBack_bout (b : Buf) (s : State) : (giveBack b s).bout = s.bout := rfl
@[simp] theorem giveBack_can (b : Buf) (s : State) : (giveBack b s).can = s.can := rfl
@[simp] theorem giveBack_serial (b : Buf) (s : State) : (giveBack b s).serial = s.serial := rfl
@[simp] theorem giveBack_sie (b : Buf) (s : State) : (giveBack b s).sie = s.sie := rfl
@[simp] theorem giveBack_chip (b : Buf) (s : State) : (giveBack b s).chip = s.chip := rfl
@[simp] theorem giveBack_pins (b : Buf) (s : State) : (giveBack b s).pins = s.pins := rfl
@[simp] theorem giveBack_clock (b : Buf) (s : State) : (giveBack b s).clock = s.clock := rfl
@[simp] theorem giveBack_inputs (b : Buf) (s : State) : (giveBack b s).inputs = s.inputs := rfl
@[simp] theorem giveBack_bench (b : Buf) (s : State) : (giveBack b s).bench = s.bench := rfl
@[simp] theorem giveBack_during (b : Buf) (s : State) : (giveBack b s).during = s.during := rfl
@[simp] theorem giveBack_response (b : Buf) (s : State) : (giveBack b s).response = s.response := rfl
@[simp] theorem giveBack_txns (b : Buf) (s : State) : (giveBack b s).txns = s.txns := rfl
@[simp] theorem giveBack_pulses (b : Buf) (s : State) : (giveBack b s).pulses = s.pulses := rfl
@[simp] theorem giveBack_answer (b : Buf) (s : State) : (giveBack b s).answer = s.answer := rfl
@[simp] theorem giveBack_draws (b : Buf) (s : State) : (giveBack b s).draws = s.draws := rfl

/-! ### deliver -/

@[simp] theorem deliver_cfg (b : Buf) (d : List Byte) (s : State) : (deliver b d s).cfg = s.cfg := rfl
@[simp] theorem deliver_dev (b : Buf) (d : List Byte) (s : State) : (deliver b d s).dev = s.dev := rfl
@[simp] theorem deliver_ctl (b : Buf) (d : List Byte) (s : State) : (deliver b d s).ctl = s.ctl := rfl
@[simp] theorem deliver_bds (b : Buf) (d : List Byte) (s : State) :
    (deliver b d s).bds = s.bds.set b ⟨.sw, d.length⟩ := rfl
@[simp] theorem deliver_mem (b : Buf) (d : List Byte) (s : State) :
    (deliver b d s).mem = s.mem.writeList b.base d := rfl
@[simp] theorem deliver_bin (b : Buf) (d : List Byte) (s : State) : (deliver b d s).bin = s.bin := rfl
@[simp] theorem deliver_bout (b : Buf) (d : List Byte) (s : State) : (deliver b d s).bout = s.bout := rfl
@[simp] theorem deliver_can (b : Buf) (d : List Byte) (s : State) : (deliver b d s).can = s.can := rfl
@[simp] theorem deliver_serial (b : Buf) (d : List Byte) (s : State) : (deliver b d s).serial = s.serial := rfl
@[simp] theorem deliver_sie (b : Buf) (d : List Byte) (s : State) : (deliver b d s).sie = s.sie := rfl
@[simp] theorem deliver_chip (b : Buf) (d : List Byte) (s : State) : (deliver b d s).chip = s.chip := rfl
@[simp] theorem deliver_pins (b : Buf) (d : List Byte) (s : State) : (deliver b d s).pins = s.pins := rfl
@[simp] theorem deliver_clock (b : Buf) (d : List Byte) (s : State) : (deliver b d s).clock = s.clock := rfl
@[simp] theorem deliver_inputs (b : Buf) (d : List Byte) (s : State) : (deliver b d s).inputs = s.inputs := rfl
@[simp] theorem deliver_bench (b : Buf) (d : List Byte) (s : State) : (deliver b d s).bench = s.bench := rfl
@[simp] theorem deliver_during (b : Buf) (d : List Byte) (s : State) : (deliver b d s).during = s.during := rfl
@[simp] theorem deliver_response (b : Buf) (d : List Byte) (s : State) : (deliver b d s).response = s.response := rfl
@[simp] theorem deliver_txns (b : Buf) (d : List Byte) (s : State) : (deliver b d s).txns = s.txns := rfl
@[simp] theorem deliver_pulses (b : Buf) (d : List Byte) (s : State) : (deliver b d s).pulses = s.pulses := rfl
@[simp] theorem deliver_answer (b : Buf) (d : List Byte) (s : State) : (deliver b d s).answer = s.answer := rfl
@[simp] theorem deliver_draws (b : Buf) (d : List Byte) (s : State) : (deliver b d s).draws = s.draws := rfl

/-! ### State.accept -/

@[simp] theorem State.accept_cfg (s : State) (rest : List Input) : (s.accept rest).cfg = s.cfg := rfl
@[simp] theorem State.accept_dev (s : State) (rest : List Input) : (s.accept rest).dev = s.dev := rfl
@[simp] theorem State.accept_ctl (s : State) (rest : List Input) : (s.accept rest).ctl = s.ctl := rfl
@[simp] theorem State.accept_bds (s : State) (rest : List Input) : (s.accept rest).bds = s.bds := rfl
@[simp] theorem State.accept_mem (s : State) (rest : List Input) : (s.accept rest).mem = s.mem := rfl
@[simp] theorem State.accept_bin (s : State) (rest : List Input) : (s.accept rest).bin = s.bin := rfl
@[simp] theorem State.accept_bout (s : State) (rest : List Input) : (s.accept rest).bout = s.bout := rfl
@[simp] theorem State.accept_can (s : State) (rest : List Input) : (s.accept rest).can = s.can := rfl
@[simp] theorem State.accept_serial (s : State) (rest : List Input) : (s.accept rest).serial = s.serial := rfl
@[simp] theorem State.accept_sie (s : State) (rest : List Input) : (s.accept rest).sie = s.sie := rfl
@[simp] theorem State.accept_chip (s : State) (rest : List Input) : (s.accept rest).chip = s.chip := rfl
@[simp] theorem State.accept_pins (s : State) (rest : List Input) : (s.accept rest).pins = s.pins := rfl
@[simp] theorem State.accept_clock (s : State) (rest : List Input) : (s.accept rest).clock = s.clock := rfl
@[simp] theorem State.accept_inputs (s : State) (rest : List Input) : (s.accept rest).inputs = rest := rfl
@[simp] theorem State.accept_bench (s : State) (rest : List Input) : (s.accept rest).bench = s.bench := rfl
@[simp] theorem State.accept_during (s : State) (rest : List Input) : (s.accept rest).during = s.during := rfl
@[simp] theorem State.accept_response (s : State) (rest : List Input) : (s.accept rest).response = none := rfl
@[simp] theorem State.accept_txns (s : State) (rest : List Input) : (s.accept rest).txns = [] := rfl
@[simp] theorem State.accept_pulses (s : State) (rest : List Input) : (s.accept rest).pulses = [] := rfl
@[simp] theorem State.accept_answer (s : State) (rest : List Input) : (s.accept rest).answer = none := rfl
@[simp] theorem State.accept_draws (s : State) (rest : List Input) : (s.accept rest).draws = s.draws := rfl

/-! ### bulkTakeBack -/

@[simp] theorem bulkTakeBack_cfg (s : State) : (bulkTakeBack s).cfg = s.cfg := rfl
@[simp] theorem bulkTakeBack_dev (s : State) : (bulkTakeBack s).dev = s.dev := rfl
@[simp] theorem bulkTakeBack_ctl (s : State) : (bulkTakeBack s).ctl = s.ctl := rfl
@[simp] theorem bulkTakeBack_bds (s : State) :
    (bulkTakeBack s).bds = { s.bds with bin0 := ⟨.sw, 0⟩, bin1 := ⟨.sw, 0⟩, bout0 := ⟨.sw, 0⟩, bout1 := ⟨.sw, 0⟩ } := rfl
@[simp] theorem bulkTakeBack_mem (s : State) : (bulkTakeBack s).mem = s.mem := rfl
@[simp] theorem bulkTakeBack_bin (s : State) : (bulkTakeBack s).bin = ⟨0, 0, 0⟩ := rfl
@[simp] theorem bulkTakeBack_bout (s : State) : (bulkTakeBack s).bout = ⟨0, 0⟩ := rfl
@[simp] theorem bulkTakeBack_can (s : State) : (bulkTakeBack s).can = s.can := rfl
@[simp] theorem bulkTakeBack_serial (s : State) : (bulkTakeBack s).serial = s.serial := rfl
@[simp] theorem bulkTakeBack_sie (s : State) : (bulkTakeBack s).sie = { s.sie with nextIn := 0, nextOut := 0 } := rfl
@[simp] theorem bulkTakeBack_chip (s : State) : (bulkTakeBack s).chip = s.chip := rfl
@[simp] theorem bulkTakeBack_pins (s : State) : (bulkTakeBack s).pins = s.pins := rfl
@[simp] theorem bulkTakeBack_clock (s : State) : (bulkTakeBack s).clock = s.clock := rfl
@[simp] theorem bulkTakeBack_inputs (s : State) : (bulkTakeBack s).inputs = s.inputs := rfl
@[simp] theorem bulkTakeBack_bench (s : State) : (bulkTakeBack s).bench = s.bench := rfl
@[simp] theorem bulkTakeBack_during (s : State) : (bulkTakeBack s).during = s.during := rfl
@[simp] theorem bulkTakeBack_response (s : State) : (bulkTakeBack s).response = s.response := rfl
@[simp] theorem bulkTakeBack_txns (s : State) : (bulkTakeBack s).txns = s.txns := rfl
@[simp] theorem bulkTakeBack_pulses (s : State) : (bulkTakeBack s).pulses = s.pulses ++ [.ppReset] := rfl
@[simp] theorem bulkTakeBack_answer (s : State) : (bulkTakeBack s).answer = s.answer := rfl
@[simp] theorem bulkTakeBack_draws (s : State) : (bulkTakeBack s).draws = s.draws := rfl

end Sys2Proof.Machine
end

