-- ==== Sys2Proof/Laws/Buffers.lean ====
section
/-! SUPPORT. The buffer descriptors and the places of the buffers in memory, and what each named operation over a buffer
can do. -/

namespace Sys2Proof.Machine

/-! ### Descriptors -/

@[simp] theorem Bds.get_set_same (d : Bds) (b : Buf) (x : Bd) : (d.set b x).get b = x := by
  rcases b with _ | _ | k | k
  · rfl
  · rfl
  · match k with | 0 => rfl | 1 => rfl
  · match k with | 0 => rfl | 1 => rfl

theorem Bds.get_set_other (d : Bds) {b c : Buf} (x : Bd) (h : c ≠ b) : (d.set b x).get c = d.get c := by
  rcases b with _ | _ | k | k <;> rcases c with _ | _ | j | j
  all_goals first
    | (exfalso; exact h rfl)
    | rfl
    | (match k with | 0 => rfl | 1 => rfl)
    | (match j with | 0 => rfl | 1 => rfl)
    | (match k, j with
      | 0, 0 => first | rfl | exact absurd rfl h
      | 0, 1 => rfl
      | 1, 0 => rfl
      | 1, 1 => first | rfl | exact absurd rfl h)

theorem Bds.get_set (d : Bds) (b c : Buf) (x : Bd) : (d.set b x).get c = if c = b then x else d.get c := by
  by_cases h : c = b
  · rw [if_pos h, h, Bds.get_set_same]
  · rw [if_neg h, Bds.get_set_other d x h]

@[simp] theorem Bds.set_ep0setup (d : Bds) (b : Buf) (x : Bd) : (d.set b x).ep0setup = d.ep0setup := by
  rcases b with _ | _ | k | k
  · rfl
  · rfl
  · match k with | 0 => rfl | 1 => rfl
  · match k with | 0 => rfl | 1 => rfl

@[simp] theorem Bds.set_get (d : Bds) (b : Buf) : d.set b (d.get b) = d := by
  rcases b with _ | _ | k | k
  · rfl
  · rfl
  · match k with | 0 => rfl | 1 => rfl
  · match k with | 0 => rfl | 1 => rfl

theorem State.bd_eq (s : State) (b : Buf) : s.bd b = s.bds.get b := rfl

@[simp] theorem State.bd_setBd_same (s : State) (b : Buf) (x : Bd) : (s.setBd b x).bd b = x :=
  Bds.get_set_same s.bds b x

theorem State.bd_setBd_other (s : State) {b c : Buf} (x : Bd) (h : c ≠ b) : (s.setBd b x).bd c = s.bd c :=
  Bds.get_set_other s.bds x h

theorem State.bd_setBd (s : State) (b c : Buf) (x : Bd) : (s.setBd b x).bd c = if c = b then x else s.bd c :=
  Bds.get_set s.bds b c x

/-- Two states with the same descriptors. -/
theorem State.bd_congr {s t : State} (h : t.bds = s.bds) (b : Buf) : t.bd b = s.bd b := by
  rw [State.bd_eq, State.bd_eq, h]

theorem Owner.ne_sw {o : Owner} : o ≠ .sw ↔ o = .sie := by cases o <;> simp
theorem Owner.ne_sie {o : Owner} : o ≠ .sie ↔ o = .sw := by cases o <;> simp

/-! ### Places -/

theorem ep0Size_bytes_le (e : Ep0Size) : e.bytes ≤ 64 := by cases e <;> decide

theorem eight_le_ep0Size_bytes (e : Ep0Size) : 8 ≤ e.bytes := by cases e <;> decide

theorem Buf.size_le (cfg : Params) (b : Buf) : b.size cfg ≤ 64 := by
  cases b
  · exact ep0Size_bytes_le cfg.ep0Size
  · exact ep0Size_bytes_le cfg.ep0Size
  · exact cfg.bulkSize.property.2
  · exact cfg.bulkSize.property.2

/-- No two buffers share an address. -/
theorem Buf.disjoint {b c : Buf} (h : b ≠ c) {i j : Nat} (hi : i < 64) (hj : j < 64) : b.base + i ≠ c.base + j := by
  rcases b with _ | _ | k | k <;> rcases c with _ | _ | l | l
  all_goals first
    | (exfalso; exact h rfl)
    | (simp only [Buf.base]; omega)
    | (have hk : k.val ≠ l.val := fun e => h (by rw [Fin.ext e])
       simp only [Buf.base]; omega)

/-! ### Sequencing -/

theorem andThen_eq_next {r : Res} {f : State → Res} {t : State} :
    andThen r f = .next t ↔ ∃ m, r = .next m ∧ f m = .next t := by
  cases r <;> simp [andThen]

@[simp] theorem andThen_next (s : State) (f : State → Res) : andThen (.next s) f = f s := rfl
@[simp] theorem andThen_fault (e : Fault) (f : State → Res) : andThen (.fault e) f = .fault e := rfl
@[simp] theorem andThen_refused (e : Refusal) (f : State → Res) : andThen (.refused e) f = .refused e := rfl

/-! ### Reading and writing -/

/-- A read of one byte answers that byte exactly when the block owns the buffer and the offset is in it. -/
theorem memRead_eq_ok {b : Buf} {off : Nat} {s : State} {v : Byte} :
    memRead b off s = .ok v ↔ (s.bd b).own = .sw ∧ off < b.size s.cfg ∧ v = s.byteAt b off := by
  unfold memRead
  by_cases ho : (s.bd b).own = .sie
  · simp [ho]
  · have ho' := Owner.ne_sie.mp ho
    by_cases hb : off < b.size s.cfg <;> simp [ho', hb, eq_comm]

/-- A read of several bytes of a buffer that the block owns. -/
theorem memReadList_eq {b : Buf} {s : State} (ho : (s.bd b).own = .sw) :
    ∀ {n off : Nat}, off + n ≤ b.size s.cfg → memReadList b off n s = .ok (s.mem.readList (b.base + off) n)
  | 0, _, _ => rfl
  | n + 1, off, h => by
    rw [memReadList, memRead_eq_ok.mpr ⟨ho, by omega, rfl⟩]
    simp only
    rw [memReadList_eq ho (by omega : off + 1 + n ≤ b.size s.cfg)]
    rfl

/-- A write of one byte answers exactly when the block owns the buffer and the offset is in it. -/
theorem memWrite_eq_next {b : Buf} {off : Nat} {v : Byte} {s t : State} :
    memWrite b off v s = .next t ↔
      (s.bd b).own = .sw ∧ off < b.size s.cfg ∧ t = { s with mem := s.mem.write (b.base + off) v } := by
  unfold memWrite
  by_cases ho : (s.bd b).own = .sie
  · simp [ho]
  · have ho' := Owner.ne_sie.mp ho
    by_cases hb : off < b.size s.cfg <;> simp [ho', hb, eq_comm]

/-- A write of several bytes answers only the memory with them written. -/
theorem memWriteList_next (b : Buf) : ∀ {vs : List Byte} {off : Nat} {s t : State},
    memWriteList b off vs s = .next t → t = { s with mem := s.mem.writeList (b.base + off) vs }
  | [], _, s, t, h => by simp only [memWriteList, Host.Outcome.next.injEq] at h; subst h; rfl
  | v :: vs, off, s, t, h => by
    rw [memWriteList, andThen_eq_next] at h
    obtain ⟨m, hm, ht⟩ := h
    obtain ⟨-, -, rfl⟩ := memWrite_eq_next.mp hm
    rw [memWriteList_next b ht]
    rfl

/-- A write of several bytes into a buffer that the block owns. -/
theorem memWriteList_eq (b : Buf) : ∀ {vs : List Byte} {off : Nat} {s : State}, (s.bd b).own = .sw →
    off + vs.length ≤ b.size s.cfg → memWriteList b off vs s = .next { s with mem := s.mem.writeList (b.base + off) vs }
  | [], _, _, _, _ => rfl
  | v :: vs, off, s, ho, h => by
    have hl : off + (vs.length + 1) ≤ b.size s.cfg := h
    rw [memWriteList, memWrite_eq_next.mpr ⟨ho, by omega, rfl⟩, andThen_next]
    exact memWriteList_eq b ho (by show off + 1 + vs.length ≤ b.size s.cfg; omega)

/-- `Arm` answers exactly when the block owns the buffer. -/
theorem arm_eq_next {b : Buf} {n : Nat} {s t : State} :
    arm b n s = .next t ↔ (s.bd b).own = .sw ∧ t = s.setBd b ⟨.sie, n⟩ := by
  unfold arm
  by_cases ho : (s.bd b).own = .sie
  · simp [ho]
  · simp [Owner.ne_sie.mp ho, eq_comm]

theorem arm_eq {b : Buf} {n : Nat} {s : State} (h : (s.bd b).own = .sw) : arm b n s = .next (s.setBd b ⟨.sie, n⟩) :=
  arm_eq_next.mpr ⟨h, rfl⟩

/-- The re-arming of endpoint 0 OUT answers exactly when the block owns its buffer. -/
theorem rearmEp0out_eq_next {s t : State} :
    rearmEp0out s = .next t ↔
      (s.bd .ep0out).own = .sw ∧
        t = { s with bds := { s.bds with ep0setup := false, ep0out := ⟨.sie, s.cfg.ep0Size.bytes⟩ } } := by
  rw [rearmEp0out, arm_eq_next]
  rfl

end Sys2Proof.Machine
end

