-- ==== Sys2Proof/Laws/Bulk.lean ====
section
/-! SUPPORT. What each shared operation of the bulk manager can do. -/

namespace Sys2Proof.Machine

/-- `Flush()` answers one of two states: nothing was written, or the active buffer is armed and the other is active. -/
theorem flush_eq_next {s t : State} :
    flush s = .next t ↔
      (s.bin.fill = 0 ∧ t = { s with bin := { s.bin with idle := 0 } }) ∨
      (0 < s.bin.fill ∧ (s.bd (.bin s.bin.active)).own = .sw ∧
        t = { s.setBd (.bin s.bin.active) ⟨.sie, s.bin.fill⟩ with bin := ⟨1 - s.bin.active, 0, 0⟩ }) := by
  unfold flush
  by_cases hf : 0 < s.bin.fill
  · rw [if_pos hf, andThen_eq_next]
    constructor
    · rintro ⟨m, hm, ht⟩
      obtain ⟨ho, rfl⟩ := arm_eq_next.mp hm
      cases ht
      exact .inr ⟨hf, ho, rfl⟩
    · rintro (⟨h0, -⟩ | ⟨-, ho, rfl⟩)
      · omega
      · exact ⟨_, arm_eq ho, rfl⟩
  · rw [if_neg hf]
    constructor
    · intro h; cases h; exact .inl ⟨by omega, rfl⟩
    · rintro (⟨-, rfl⟩ | ⟨h, -⟩)
      · rfl
      · omega

/-- The state that `Flush()` leaves when the filled buffer, if there is one, is the block's. -/
theorem flush_eq {s : State} (h : 0 < s.bin.fill → (s.bd (.bin s.bin.active)).own = .sw) :
    flush s = .next (if 0 < s.bin.fill then
      { s.setBd (.bin s.bin.active) ⟨.sie, s.bin.fill⟩ with bin := ⟨1 - s.bin.active, 0, 0⟩ }
    else { s with bin := { s.bin with idle := 0 } }) := by
  rw [flush_eq_next]
  by_cases hf : 0 < s.bin.fill
  · exact .inr ⟨hf, h hf, by rw [if_pos hf]⟩
  · exact .inl ⟨by omega, by rw [if_neg hf]⟩

/-- The state with a byte appended to the active bulk-IN buffer. -/
def appended (b : Byte) (s : State) : State :=
  { s with
    mem := s.mem.write ((Buf.bin s.bin.active).base + s.bin.fill) b
    bin := { s.bin with fill := s.bin.fill + 1, idle := 0 } }

/-- Appending a byte answers the state with the byte in its place, flushed when that filled the buffer. -/
theorem putByte_eq_next {b : Byte} {s t : State} :
    putByte b s = .next t ↔
      (s.bd (.bin s.bin.active)).own = .sw ∧ s.bin.fill < s.cfg.bulkSize.val ∧
        t = (if s.bin.fill + 1 = s.cfg.bulkSize.val then
          { (appended b s).setBd (.bin s.bin.active) ⟨.sie, s.bin.fill + 1⟩ with bin := ⟨1 - s.bin.active, 0, 0⟩ }
        else appended b s) := by
  unfold putByte
  rw [andThen_eq_next]
  constructor
  · rintro ⟨m, hm, ht⟩
    obtain ⟨ho, hb, rfl⟩ := memWrite_eq_next.mp hm
    refine ⟨ho, hb, ?_⟩
    by_cases hf : s.bin.fill + 1 = s.cfg.bulkSize.val
    · rw [if_pos hf]
      rw [if_pos (show _ from hf)] at ht
      rcases flush_eq_next.mp ht with ⟨h0, -⟩ | ⟨-, -, rfl⟩
      · exact absurd h0 (Nat.succ_ne_zero _)
      · rfl
    · rw [if_neg hf]
      rw [if_neg (show _ from hf)] at ht
      cases ht; rfl
  · rintro ⟨ho, hb, rfl⟩
    refine ⟨_, memWrite_eq_next.mpr ⟨ho, hb, rfl⟩, ?_⟩
    by_cases hf : s.bin.fill + 1 = s.cfg.bulkSize.val
    · rw [if_pos hf]
      rw [if_pos (show _ from hf)]
      exact flush_eq_next.mpr (.inr ⟨Nat.succ_pos _, ho, rfl⟩)
    · rw [if_neg hf]
      rw [if_neg (show _ from hf)]
      rfl

/-- The state with the active bulk-OUT buffer handed back and the other one active. -/
def passedOn (s : State) : State :=
  { s.setBd (.bout s.bout.active) ⟨.sie, s.cfg.bulkSize.val⟩ with bout := ⟨1 - s.bout.active, 0⟩ }

theorem nextOutBuffer_eq_next {s t : State} :
    nextOutBuffer s = .next t ↔ (s.bd (.bout s.bout.active)).own = .sw ∧ t = passedOn s := by
  unfold nextOutBuffer
  rw [andThen_eq_next]
  constructor
  · rintro ⟨m, hm, ht⟩
    obtain ⟨ho, rfl⟩ := arm_eq_next.mp hm
    cases ht
    exact ⟨ho, rfl⟩
  · rintro ⟨ho, rfl⟩
    exact ⟨_, arm_eq ho, rfl⟩

theorem State.inReady_eq_true {s : State} :
    s.inReady = true ↔ s.dev.config ≠ 0 ∧ (s.bd (.bin s.bin.active)).own = .sw := by
  simp only [State.inReady, State.configured, Bool.and_eq_true, bne_iff_ne, beq_iff_eq]

theorem State.outHasData_eq_true {s : State} :
    s.outHasData = true ↔ s.dev.config ≠ 0 ∧ (s.bd (.bout s.bout.active)).own = .sw ∧
      s.bout.pos < (s.bd (.bout s.bout.active)).count := by
  simp only [State.outHasData, State.configured, Bool.and_eq_true, bne_iff_ne, beq_iff_eq, decide_eq_true_eq, and_assoc]

/-- Taking a byte answers it, and hands the buffer back when it was the last one. -/
theorem getByte_eq_next {s t : State} :
    getByte s = .next t ↔
      (s.bd (.bout s.bout.active)).own = .sw ∧ s.bout.pos < s.cfg.bulkSize.val ∧
        t = respond .ok [s.byteAt (.bout s.bout.active) s.bout.pos]
          (if s.bout.pos + 1 = (s.bd (.bout s.bout.active)).count then passedOn s
          else { s with bout := ⟨s.bout.active, s.bout.pos + 1⟩ }) := by
  unfold getByte
  constructor
  · intro h
    split at h
    · exact absurd h (by simp)
    · next b hb =>
      obtain ⟨ho, hlt, rfl⟩ := memRead_eq_ok.mp hb
      refine ⟨ho, hlt, ?_⟩
      split at h
      · next he =>
        obtain ⟨u, hu, ht⟩ := andThen_eq_next.mp h
        obtain ⟨-, rfl⟩ := nextOutBuffer_eq_next.mp hu
        cases ht
        rw [if_pos he]
      · next he =>
        cases h
        rw [if_neg he]
  · rintro ⟨ho, hlt, rfl⟩
    rw [memRead_eq_ok.mpr ⟨ho, hlt, rfl⟩]
    by_cases he : s.bout.pos + 1 = (s.bd (.bout s.bout.active)).count
    · simp only [if_pos he]
      rw [nextOutBuffer_eq_next.mpr ⟨ho, rfl⟩]
      rfl
    · simp only [if_neg he]

/-- The zero-length step answers the state itself, or passes over an empty packet. -/
theorem bulkOutZeroLength_eq_next {s t : State} :
    bulkOutZeroLength s = .next t ↔
      t = if s.configured = true ∧ (s.bd (.bout s.bout.active)).own = .sw ∧ (s.bd (.bout s.bout.active)).count = 0 then
        passedOn s else s := by
  unfold bulkOutZeroLength
  by_cases h : s.configured = true ∧ (s.bd (.bout s.bout.active)).own = .sw ∧ (s.bd (.bout s.bout.active)).count = 0
  · rw [if_pos h, if_pos h, nextOutBuffer_eq_next]
    exact ⟨fun x => x.2, fun x => ⟨h.2.1, x⟩⟩
  · rw [if_neg h, if_neg h]
    simp [eq_comm]

/-- The zero-length step never stops. -/
theorem bulkOutZeroLength_completes (s : State) : ∃ t, bulkOutZeroLength s = .next t :=
  ⟨_, bulkOutZeroLength_eq_next.mpr rfl⟩

/-- The idle step answers one of three states: nothing waits, one more poll is counted, or the threshold is reached and
the buffer is handed over. -/
theorem idleStep_eq_next {s t : State} :
    idleStep s = .next t ↔
      (s.bin.fill = 0 ∧ t = { s with bin := { s.bin with idle := 0 } }) ∨
      (0 < s.bin.fill ∧ s.bin.idle + 1 < s.cfg.idleFlushPolls.val ∧
        t = { s with bin := { s.bin with idle := s.bin.idle + 1 } }) ∨
      (0 < s.bin.fill ∧ s.cfg.idleFlushPolls.val ≤ s.bin.idle + 1 ∧ (s.bd (.bin s.bin.active)).own = .sw ∧
        t = { s.setBd (.bin s.bin.active) ⟨.sie, s.bin.fill⟩ with bin := ⟨1 - s.bin.active, 0, 0⟩ }) := by
  unfold idleStep
  by_cases hf : 0 < s.bin.fill
  · rw [if_pos hf]
    by_cases hi : s.cfg.idleFlushPolls.val ≤ s.bin.idle + 1
    · have hflush : ∀ u : State, flush { s with bin := { s.bin with idle := s.bin.idle + 1 } } = .next u ↔
          (s.bd (.bin s.bin.active)).own = .sw ∧
            u = { s.setBd (.bin s.bin.active) ⟨.sie, s.bin.fill⟩ with bin := ⟨1 - s.bin.active, 0, 0⟩ } := by
        intro u
        rw [flush_eq_next]
        constructor
        · rintro (⟨h0, -⟩ | ⟨-, ho, rfl⟩)
          · exact absurd h0 (Nat.pos_iff_ne_zero.mp hf)
          · exact ⟨ho, rfl⟩
        · rintro ⟨ho, rfl⟩
          exact .inr ⟨hf, ho, rfl⟩
      rw [if_pos (show _ from hi), hflush]
      constructor
      · rintro ⟨ho, rfl⟩; exact .inr (.inr ⟨hf, hi, ho, rfl⟩)
      · rintro (⟨h0, -⟩ | ⟨-, h1, -⟩ | ⟨-, -, ho, rfl⟩)
        · omega
        · omega
        · exact ⟨ho, rfl⟩
    · rw [if_neg (show ¬ _ from hi)]
      constructor
      · intro h; cases h; exact .inr (.inl ⟨hf, by omega, rfl⟩)
      · rintro (⟨h0, -⟩ | ⟨-, -, rfl⟩ | ⟨-, h1, -⟩)
        · omega
        · rfl
        · omega
  · rw [if_neg hf]
    constructor
    · intro h; cases h; exact .inl ⟨by omega, rfl⟩
    · rintro (⟨-, rfl⟩ | ⟨h, -⟩ | ⟨h, -⟩)
      · rfl
      · omega
      · omega

/-- `BulkReset` always answers: every bulk descriptor is taken back, and the OUT buffers are armed when configured. -/
theorem bulkReset_eq (c : Bool) (s : State) :
    bulkReset c s = .next (if c then
      ((bulkTakeBack s).setBd (.bout 0) ⟨.sie, s.cfg.bulkSize.val⟩).setBd (.bout 1) ⟨.sie, s.cfg.bulkSize.val⟩
    else bulkTakeBack s) := by
  cases c <;> rfl

end Sys2Proof.Machine
end

