-- ==== Sys2Proof/Laws/Serial.lean ====
section
/-! SUPPORT. What happens outside, and every serial transaction, leaves the block's own state alone: one lemma per field
and operation. -/

namespace Sys2Proof.Machine

/-! ### What happens outside -/

@[simp] theorem outsideAct_cfg (o : Outside) (s : State) : (outsideAct o s).cfg = s.cfg := by
  cases o <;> rfl

@[simp] theorem outsideAct_dev (o : Outside) (s : State) : (outsideAct o s).dev = s.dev := by
  cases o <;> rfl

@[simp] theorem outsideAct_ctl (o : Outside) (s : State) : (outsideAct o s).ctl = s.ctl := by
  cases o <;> rfl

@[simp] theorem outsideAct_bds (o : Outside) (s : State) : (outsideAct o s).bds = s.bds := by
  cases o <;> rfl

@[simp] theorem outsideAct_mem (o : Outside) (s : State) : (outsideAct o s).mem = s.mem := by
  cases o <;> rfl

@[simp] theorem outsideAct_bin (o : Outside) (s : State) : (outsideAct o s).bin = s.bin := by
  cases o <;> rfl

@[simp] theorem outsideAct_bout (o : Outside) (s : State) : (outsideAct o s).bout = s.bout := by
  cases o <;> rfl

@[simp] theorem outsideAct_can (o : Outside) (s : State) : (outsideAct o s).can = s.can := by
  cases o <;> rfl

@[simp] theorem outsideAct_sie (o : Outside) (s : State) : (outsideAct o s).sie = s.sie := by
  cases o <;> rfl

@[simp] theorem outsideAct_clock (o : Outside) (s : State) : (outsideAct o s).clock = s.clock := by
  cases o <;> rfl

@[simp] theorem outsideAct_inputs (o : Outside) (s : State) : (outsideAct o s).inputs = s.inputs := by
  cases o <;> rfl

@[simp] theorem outsideAct_bench (o : Outside) (s : State) : (outsideAct o s).bench = s.bench := by
  cases o <;> rfl

@[simp] theorem outsideAct_response (o : Outside) (s : State) : (outsideAct o s).response = s.response := by
  cases o <;> rfl

@[simp] theorem outsideAct_pulses (o : Outside) (s : State) : (outsideAct o s).pulses = s.pulses := by
  cases o <;> rfl

@[simp] theorem outsideAct_answer (o : Outside) (s : State) : (outsideAct o s).answer = s.answer := by
  cases o <;> rfl

@[simp] theorem outsideAct_serial (o : Outside) (s : State) : (outsideAct o s).serial = s.serial := by
  cases o <;> rfl

@[simp] theorem outsideAct_txns (o : Outside) (s : State) : (outsideAct o s).txns = s.txns := by
  cases o <;> rfl

@[simp] theorem outsideActs_cfg : ∀ (os : List Outside) (s : State), (outsideActs os s).cfg = s.cfg
  | [], _ => rfl
  | o :: os, s => by rw [outsideActs, outsideActs_cfg os, outsideAct_cfg]

@[simp] theorem outsideActs_dev : ∀ (os : List Outside) (s : State), (outsideActs os s).dev = s.dev
  | [], _ => rfl
  | o :: os, s => by rw [outsideActs, outsideActs_dev os, outsideAct_dev]

@[simp] theorem outsideActs_ctl : ∀ (os : List Outside) (s : State), (outsideActs os s).ctl = s.ctl
  | [], _ => rfl
  | o :: os, s => by rw [outsideActs, outsideActs_ctl os, outsideAct_ctl]

@[simp] theorem outsideActs_bds : ∀ (os : List Outside) (s : State), (outsideActs os s).bds = s.bds
  | [], _ => rfl
  | o :: os, s => by rw [outsideActs, outsideActs_bds os, outsideAct_bds]

@[simp] theorem outsideActs_mem : ∀ (os : List Outside) (s : State), (outsideActs os s).mem = s.mem
  | [], _ => rfl
  | o :: os, s => by rw [outsideActs, outsideActs_mem os, outsideAct_mem]

@[simp] theorem outsideActs_bin : ∀ (os : List Outside) (s : State), (outsideActs os s).bin = s.bin
  | [], _ => rfl
  | o :: os, s => by rw [outsideActs, outsideActs_bin os, outsideAct_bin]

@[simp] theorem outsideActs_bout : ∀ (os : List Outside) (s : State), (outsideActs os s).bout = s.bout
  | [], _ => rfl
  | o :: os, s => by rw [outsideActs, outsideActs_bout os, outsideAct_bout]

@[simp] theorem outsideActs_can : ∀ (os : List Outside) (s : State), (outsideActs os s).can = s.can
  | [], _ => rfl
  | o :: os, s => by rw [outsideActs, outsideActs_can os, outsideAct_can]

@[simp] theorem outsideActs_sie : ∀ (os : List Outside) (s : State), (outsideActs os s).sie = s.sie
  | [], _ => rfl
  | o :: os, s => by rw [outsideActs, outsideActs_sie os, outsideAct_sie]

@[simp] theorem outsideActs_clock : ∀ (os : List Outside) (s : State), (outsideActs os s).clock = s.clock
  | [], _ => rfl
  | o :: os, s => by rw [outsideActs, outsideActs_clock os, outsideAct_clock]

@[simp] theorem outsideActs_inputs : ∀ (os : List Outside) (s : State), (outsideActs os s).inputs = s.inputs
  | [], _ => rfl
  | o :: os, s => by rw [outsideActs, outsideActs_inputs os, outsideAct_inputs]

@[simp] theorem outsideActs_bench : ∀ (os : List Outside) (s : State), (outsideActs os s).bench = s.bench
  | [], _ => rfl
  | o :: os, s => by rw [outsideActs, outsideActs_bench os, outsideAct_bench]

@[simp] theorem outsideActs_response : ∀ (os : List Outside) (s : State), (outsideActs os s).response = s.response
  | [], _ => rfl
  | o :: os, s => by rw [outsideActs, outsideActs_response os, outsideAct_response]

@[simp] theorem outsideActs_pulses : ∀ (os : List Outside) (s : State), (outsideActs os s).pulses = s.pulses
  | [], _ => rfl
  | o :: os, s => by rw [outsideActs, outsideActs_pulses os, outsideAct_pulses]

@[simp] theorem outsideActs_answer : ∀ (os : List Outside) (s : State), (outsideActs os s).answer = s.answer
  | [], _ => rfl
  | o :: os, s => by rw [outsideActs, outsideActs_answer os, outsideAct_answer]

@[simp] theorem outsideActs_serial : ∀ (os : List Outside) (s : State), (outsideActs os s).serial = s.serial
  | [], _ => rfl
  | o :: os, s => by rw [outsideActs, outsideActs_serial os, outsideAct_serial]

@[simp] theorem outsideActs_txns : ∀ (os : List Outside) (s : State), (outsideActs os s).txns = s.txns
  | [], _ => rfl
  | o :: os, s => by rw [outsideActs, outsideActs_txns os, outsideAct_txns]

@[simp] theorem letOutside_cfg (s : State) : (letOutside s).cfg = s.cfg := by
  unfold letOutside; split <;> simp

@[simp] theorem letOutside_dev (s : State) : (letOutside s).dev = s.dev := by
  unfold letOutside; split <;> simp

@[simp] theorem letOutside_ctl (s : State) : (letOutside s).ctl = s.ctl := by
  unfold letOutside; split <;> simp

@[simp] theorem letOutside_bds (s : State) : (letOutside s).bds = s.bds := by
  unfold letOutside; split <;> simp

@[simp] theorem letOutside_mem (s : State) : (letOutside s).mem = s.mem := by
  unfold letOutside; split <;> simp

@[simp] theorem letOutside_bin (s : State) : (letOutside s).bin = s.bin := by
  unfold letOutside; split <;> simp

@[simp] theorem letOutside_bout (s : State) : (letOutside s).bout = s.bout := by
  unfold letOutside; split <;> simp

@[simp] theorem letOutside_can (s : State) : (letOutside s).can = s.can := by
  unfold letOutside; split <;> simp

@[simp] theorem letOutside_sie (s : State) : (letOutside s).sie = s.sie := by
  unfold letOutside; split <;> simp

@[simp] theorem letOutside_clock (s : State) : (letOutside s).clock = s.clock := by
  unfold letOutside; split <;> simp

@[simp] theorem letOutside_inputs (s : State) : (letOutside s).inputs = s.inputs := by
  unfold letOutside; split <;> simp

@[simp] theorem letOutside_bench (s : State) : (letOutside s).bench = s.bench := by
  unfold letOutside; split <;> simp

@[simp] theorem letOutside_response (s : State) : (letOutside s).response = s.response := by
  unfold letOutside; split <;> simp

@[simp] theorem letOutside_pulses (s : State) : (letOutside s).pulses = s.pulses := by
  unfold letOutside; split <;> simp

@[simp] theorem letOutside_answer (s : State) : (letOutside s).answer = s.answer := by
  unfold letOutside; split <;> simp

@[simp] theorem letOutside_serial (s : State) : (letOutside s).serial = s.serial := by
  unfold letOutside; split <;> simp

@[simp] theorem letOutside_txns (s : State) : (letOutside s).txns = s.txns := by
  unfold letOutside; split <;> simp

/-! ### Transactions -/

@[simp] theorem txnReset_cfg (s : State) : (txnReset s).cfg = s.cfg := by
  simp [txnReset]

@[simp] theorem txnReset_dev (s : State) : (txnReset s).dev = s.dev := by
  simp [txnReset]

@[simp] theorem txnReset_ctl (s : State) : (txnReset s).ctl = s.ctl := by
  simp [txnReset]

@[simp] theorem txnReset_bds (s : State) : (txnReset s).bds = s.bds := by
  simp [txnReset]

@[simp] theorem txnReset_mem (s : State) : (txnReset s).mem = s.mem := by
  simp [txnReset]

@[simp] theorem txnReset_bin (s : State) : (txnReset s).bin = s.bin := by
  simp [txnReset]

@[simp] theorem txnReset_bout (s : State) : (txnReset s).bout = s.bout := by
  simp [txnReset]

@[simp] theorem txnReset_can (s : State) : (txnReset s).can = s.can := by
  simp [txnReset]

@[simp] theorem txnReset_sie (s : State) : (txnReset s).sie = s.sie := by
  simp [txnReset]

@[simp] theorem txnReset_clock (s : State) : (txnReset s).clock = s.clock := by
  simp [txnReset]

@[simp] theorem txnReset_inputs (s : State) : (txnReset s).inputs = s.inputs := by
  simp [txnReset]

@[simp] theorem txnReset_bench (s : State) : (txnReset s).bench = s.bench := by
  simp [txnReset]

@[simp] theorem txnReset_response (s : State) : (txnReset s).response = s.response := by
  simp [txnReset]

@[simp] theorem txnReset_pulses (s : State) : (txnReset s).pulses = s.pulses := by
  simp [txnReset]

@[simp] theorem txnReset_answer (s : State) : (txnReset s).answer = s.answer := by
  simp [txnReset]

@[simp] theorem txnRead_cfg (a : Byte) (s : State) : (txnRead a s).2.cfg = s.cfg := by
  simp [txnRead]

@[simp] theorem txnRead_dev (a : Byte) (s : State) : (txnRead a s).2.dev = s.dev := by
  simp [txnRead]

@[simp] theorem txnRead_ctl (a : Byte) (s : State) : (txnRead a s).2.ctl = s.ctl := by
  simp [txnRead]

@[simp] theorem txnRead_bds (a : Byte) (s : State) : (txnRead a s).2.bds = s.bds := by
  simp [txnRead]

@[simp] theorem txnRead_mem (a : Byte) (s : State) : (txnRead a s).2.mem = s.mem := by
  simp [txnRead]

@[simp] theorem txnRead_bin (a : Byte) (s : State) : (txnRead a s).2.bin = s.bin := by
  simp [txnRead]

@[simp] theorem txnRead_bout (a : Byte) (s : State) : (txnRead a s).2.bout = s.bout := by
  simp [txnRead]

@[simp] theorem txnRead_can (a : Byte) (s : State) : (txnRead a s).2.can = s.can := by
  simp [txnRead]

@[simp] theorem txnRead_sie (a : Byte) (s : State) : (txnRead a s).2.sie = s.sie := by
  simp [txnRead]

@[simp] theorem txnRead_clock (a : Byte) (s : State) : (txnRead a s).2.clock = s.clock := by
  simp [txnRead]

@[simp] theorem txnRead_inputs (a : Byte) (s : State) : (txnRead a s).2.inputs = s.inputs := by
  simp [txnRead]

@[simp] theorem txnRead_bench (a : Byte) (s : State) : (txnRead a s).2.bench = s.bench := by
  simp [txnRead]

@[simp] theorem txnRead_response (a : Byte) (s : State) : (txnRead a s).2.response = s.response := by
  simp [txnRead]

@[simp] theorem txnRead_pulses (a : Byte) (s : State) : (txnRead a s).2.pulses = s.pulses := by
  simp [txnRead]

@[simp] theorem txnRead_answer (a : Byte) (s : State) : (txnRead a s).2.answer = s.answer := by
  simp [txnRead]

@[simp] theorem txnWrite_cfg (a : Byte) (ds : List Byte) (s : State) : (txnWrite a ds s).cfg = s.cfg := by
  simp [txnWrite]

@[simp] theorem txnWrite_dev (a : Byte) (ds : List Byte) (s : State) : (txnWrite a ds s).dev = s.dev := by
  simp [txnWrite]

@[simp] theorem txnWrite_ctl (a : Byte) (ds : List Byte) (s : State) : (txnWrite a ds s).ctl = s.ctl := by
  simp [txnWrite]

@[simp] theorem txnWrite_bds (a : Byte) (ds : List Byte) (s : State) : (txnWrite a ds s).bds = s.bds := by
  simp [txnWrite]

@[simp] theorem txnWrite_mem (a : Byte) (ds : List Byte) (s : State) : (txnWrite a ds s).mem = s.mem := by
  simp [txnWrite]

@[simp] theorem txnWrite_bin (a : Byte) (ds : List Byte) (s : State) : (txnWrite a ds s).bin = s.bin := by
  simp [txnWrite]

@[simp] theorem txnWrite_bout (a : Byte) (ds : List Byte) (s : State) : (txnWrite a ds s).bout = s.bout := by
  simp [txnWrite]

@[simp] theorem txnWrite_can (a : Byte) (ds : List Byte) (s : State) : (txnWrite a ds s).can = s.can := by
  simp [txnWrite]

@[simp] theorem txnWrite_sie (a : Byte) (ds : List Byte) (s : State) : (txnWrite a ds s).sie = s.sie := by
  simp [txnWrite]

@[simp] theorem txnWrite_clock (a : Byte) (ds : List Byte) (s : State) : (txnWrite a ds s).clock = s.clock := by
  simp [txnWrite]

@[simp] theorem txnWrite_inputs (a : Byte) (ds : List Byte) (s : State) : (txnWrite a ds s).inputs = s.inputs := by
  simp [txnWrite]

@[simp] theorem txnWrite_bench (a : Byte) (ds : List Byte) (s : State) : (txnWrite a ds s).bench = s.bench := by
  simp [txnWrite]

@[simp] theorem txnWrite_response (a : Byte) (ds : List Byte) (s : State) : (txnWrite a ds s).response = s.response := by
  simp [txnWrite]

@[simp] theorem txnWrite_pulses (a : Byte) (ds : List Byte) (s : State) : (txnWrite a ds s).pulses = s.pulses := by
  simp [txnWrite]

@[simp] theorem txnWrite_answer (a : Byte) (ds : List Byte) (s : State) : (txnWrite a ds s).answer = s.answer := by
  simp [txnWrite]

@[simp] theorem txnBitModify_cfg (a m d : Byte) (s : State) : (txnBitModify a m d s).cfg = s.cfg := by
  simp [txnBitModify]

@[simp] theorem txnBitModify_dev (a m d : Byte) (s : State) : (txnBitModify a m d s).dev = s.dev := by
  simp [txnBitModify]

@[simp] theorem txnBitModify_ctl (a m d : Byte) (s : State) : (txnBitModify a m d s).ctl = s.ctl := by
  simp [txnBitModify]

@[simp] theorem txnBitModify_bds (a m d : Byte) (s : State) : (txnBitModify a m d s).bds = s.bds := by
  simp [txnBitModify]

@[simp] theorem txnBitModify_mem (a m d : Byte) (s : State) : (txnBitModify a m d s).mem = s.mem := by
  simp [txnBitModify]

@[simp] theorem txnBitModify_bin (a m d : Byte) (s : State) : (txnBitModify a m d s).bin = s.bin := by
  simp [txnBitModify]

@[simp] theorem txnBitModify_bout (a m d : Byte) (s : State) : (txnBitModify a m d s).bout = s.bout := by
  simp [txnBitModify]

@[simp] theorem txnBitModify_can (a m d : Byte) (s : State) : (txnBitModify a m d s).can = s.can := by
  simp [txnBitModify]

@[simp] theorem txnBitModify_sie (a m d : Byte) (s : State) : (txnBitModify a m d s).sie = s.sie := by
  simp [txnBitModify]

@[simp] theorem txnBitModify_clock (a m d : Byte) (s : State) : (txnBitModify a m d s).clock = s.clock := by
  simp [txnBitModify]

@[simp] theorem txnBitModify_inputs (a m d : Byte) (s : State) : (txnBitModify a m d s).inputs = s.inputs := by
  simp [txnBitModify]

@[simp] theorem txnBitModify_bench (a m d : Byte) (s : State) : (txnBitModify a m d s).bench = s.bench := by
  simp [txnBitModify]

@[simp] theorem txnBitModify_response (a m d : Byte) (s : State) : (txnBitModify a m d s).response = s.response := by
  simp [txnBitModify]

@[simp] theorem txnBitModify_pulses (a m d : Byte) (s : State) : (txnBitModify a m d s).pulses = s.pulses := by
  simp [txnBitModify]

@[simp] theorem txnBitModify_answer (a m d : Byte) (s : State) : (txnBitModify a m d s).answer = s.answer := by
  simp [txnBitModify]

@[simp] theorem txnReadStatus_cfg (s : State) : (txnReadStatus s).2.cfg = s.cfg := by
  simp [txnReadStatus]

@[simp] theorem txnReadStatus_dev (s : State) : (txnReadStatus s).2.dev = s.dev := by
  simp [txnReadStatus]

@[simp] theorem txnReadStatus_ctl (s : State) : (txnReadStatus s).2.ctl = s.ctl := by
  simp [txnReadStatus]

@[simp] theorem txnReadStatus_bds (s : State) : (txnReadStatus s).2.bds = s.bds := by
  simp [txnReadStatus]

@[simp] theorem txnReadStatus_mem (s : State) : (txnReadStatus s).2.mem = s.mem := by
  simp [txnReadStatus]

@[simp] theorem txnReadStatus_bin (s : State) : (txnReadStatus s).2.bin = s.bin := by
  simp [txnReadStatus]

@[simp] theorem txnReadStatus_bout (s : State) : (txnReadStatus s).2.bout = s.bout := by
  simp [txnReadStatus]

@[simp] theorem txnReadStatus_can (s : State) : (txnReadStatus s).2.can = s.can := by
  simp [txnReadStatus]

@[simp] theorem txnReadStatus_sie (s : State) : (txnReadStatus s).2.sie = s.sie := by
  simp [txnReadStatus]

@[simp] theorem txnReadStatus_clock (s : State) : (txnReadStatus s).2.clock = s.clock := by
  simp [txnReadStatus]

@[simp] theorem txnReadStatus_inputs (s : State) : (txnReadStatus s).2.inputs = s.inputs := by
  simp [txnReadStatus]

@[simp] theorem txnReadStatus_bench (s : State) : (txnReadStatus s).2.bench = s.bench := by
  simp [txnReadStatus]

@[simp] theorem txnReadStatus_response (s : State) : (txnReadStatus s).2.response = s.response := by
  simp [txnReadStatus]

@[simp] theorem txnReadStatus_pulses (s : State) : (txnReadStatus s).2.pulses = s.pulses := by
  simp [txnReadStatus]

@[simp] theorem txnReadStatus_answer (s : State) : (txnReadStatus s).2.answer = s.answer := by
  simp [txnReadStatus]

@[simp] theorem txnLoadTx_cfg (slot : Fin 3) (ds : List Byte) (s : State) : (txnLoadTx slot ds s).cfg = s.cfg := by
  simp [txnLoadTx]

@[simp] theorem txnLoadTx_dev (slot : Fin 3) (ds : List Byte) (s : State) : (txnLoadTx slot ds s).dev = s.dev := by
  simp [txnLoadTx]

@[simp] theorem txnLoadTx_ctl (slot : Fin 3) (ds : List Byte) (s : State) : (txnLoadTx slot ds s).ctl = s.ctl := by
  simp [txnLoadTx]

@[simp] theorem txnLoadTx_bds (slot : Fin 3) (ds : List Byte) (s : State) : (txnLoadTx slot ds s).bds = s.bds := by
  simp [txnLoadTx]

@[simp] theorem txnLoadTx_mem (slot : Fin 3) (ds : List Byte) (s : State) : (txnLoadTx slot ds s).mem = s.mem := by
  simp [txnLoadTx]

@[simp] theorem txnLoadTx_bin (slot : Fin 3) (ds : List Byte) (s : State) : (txnLoadTx slot ds s).bin = s.bin := by
  simp [txnLoadTx]

@[simp] theorem txnLoadTx_bout (slot : Fin 3) (ds : List Byte) (s : State) : (txnLoadTx slot ds s).bout = s.bout := by
  simp [txnLoadTx]

@[simp] theorem txnLoadTx_can (slot : Fin 3) (ds : List Byte) (s : State) : (txnLoadTx slot ds s).can = s.can := by
  simp [txnLoadTx]

@[simp] theorem txnLoadTx_sie (slot : Fin 3) (ds : List Byte) (s : State) : (txnLoadTx slot ds s).sie = s.sie := by
  simp [txnLoadTx]

@[simp] theorem txnLoadTx_clock (slot : Fin 3) (ds : List Byte) (s : State) : (txnLoadTx slot ds s).clock = s.clock := by
  simp [txnLoadTx]

@[simp] theorem txnLoadTx_inputs (slot : Fin 3) (ds : List Byte) (s : State) : (txnLoadTx slot ds s).inputs = s.inputs := by
  simp [txnLoadTx]

@[simp] theorem txnLoadTx_bench (slot : Fin 3) (ds : List Byte) (s : State) : (txnLoadTx slot ds s).bench = s.bench := by
  simp [txnLoadTx]

@[simp] theorem txnLoadTx_response (slot : Fin 3) (ds : List Byte) (s : State) : (txnLoadTx slot ds s).response = s.response := by
  simp [txnLoadTx]

@[simp] theorem txnLoadTx_pulses (slot : Fin 3) (ds : List Byte) (s : State) : (txnLoadTx slot ds s).pulses = s.pulses := by
  simp [txnLoadTx]

@[simp] theorem txnLoadTx_answer (slot : Fin 3) (ds : List Byte) (s : State) : (txnLoadTx slot ds s).answer = s.answer := by
  simp [txnLoadTx]

@[simp] theorem txnReadRx_cfg (b : Fin 2) (s : State) : (txnReadRx b s).2.cfg = s.cfg := by
  simp [txnReadRx]

@[simp] theorem txnReadRx_dev (b : Fin 2) (s : State) : (txnReadRx b s).2.dev = s.dev := by
  simp [txnReadRx]

@[simp] theorem txnReadRx_ctl (b : Fin 2) (s : State) : (txnReadRx b s).2.ctl = s.ctl := by
  simp [txnReadRx]

@[simp] theorem txnReadRx_bds (b : Fin 2) (s : State) : (txnReadRx b s).2.bds = s.bds := by
  simp [txnReadRx]

@[simp] theorem txnReadRx_mem (b : Fin 2) (s : State) : (txnReadRx b s).2.mem = s.mem := by
  simp [txnReadRx]

@[simp] theorem txnReadRx_bin (b : Fin 2) (s : State) : (txnReadRx b s).2.bin = s.bin := by
  simp [txnReadRx]

@[simp] theorem txnReadRx_bout (b : Fin 2) (s : State) : (txnReadRx b s).2.bout = s.bout := by
  simp [txnReadRx]

@[simp] theorem txnReadRx_can (b : Fin 2) (s : State) : (txnReadRx b s).2.can = s.can := by
  simp [txnReadRx]

@[simp] theorem txnReadRx_sie (b : Fin 2) (s : State) : (txnReadRx b s).2.sie = s.sie := by
  simp [txnReadRx]

@[simp] theorem txnReadRx_clock (b : Fin 2) (s : State) : (txnReadRx b s).2.clock = s.clock := by
  simp [txnReadRx]

@[simp] theorem txnReadRx_inputs (b : Fin 2) (s : State) : (txnReadRx b s).2.inputs = s.inputs := by
  simp [txnReadRx]

@[simp] theorem txnReadRx_bench (b : Fin 2) (s : State) : (txnReadRx b s).2.bench = s.bench := by
  simp [txnReadRx]

@[simp] theorem txnReadRx_response (b : Fin 2) (s : State) : (txnReadRx b s).2.response = s.response := by
  simp [txnReadRx]

@[simp] theorem txnReadRx_pulses (b : Fin 2) (s : State) : (txnReadRx b s).2.pulses = s.pulses := by
  simp [txnReadRx]

@[simp] theorem txnReadRx_answer (b : Fin 2) (s : State) : (txnReadRx b s).2.answer = s.answer := by
  simp [txnReadRx]

@[simp] theorem samplePin_cfg (p : Pin) (s : State) : (samplePin p s).2.cfg = s.cfg := by
  simp [samplePin]

@[simp] theorem samplePin_dev (p : Pin) (s : State) : (samplePin p s).2.dev = s.dev := by
  simp [samplePin]

@[simp] theorem samplePin_ctl (p : Pin) (s : State) : (samplePin p s).2.ctl = s.ctl := by
  simp [samplePin]

@[simp] theorem samplePin_bds (p : Pin) (s : State) : (samplePin p s).2.bds = s.bds := by
  simp [samplePin]

@[simp] theorem samplePin_mem (p : Pin) (s : State) : (samplePin p s).2.mem = s.mem := by
  simp [samplePin]

@[simp] theorem samplePin_bin (p : Pin) (s : State) : (samplePin p s).2.bin = s.bin := by
  simp [samplePin]

@[simp] theorem samplePin_bout (p : Pin) (s : State) : (samplePin p s).2.bout = s.bout := by
  simp [samplePin]

@[simp] theorem samplePin_can (p : Pin) (s : State) : (samplePin p s).2.can = s.can := by
  simp [samplePin]

@[simp] theorem samplePin_sie (p : Pin) (s : State) : (samplePin p s).2.sie = s.sie := by
  simp [samplePin]

@[simp] theorem samplePin_clock (p : Pin) (s : State) : (samplePin p s).2.clock = s.clock := by
  simp [samplePin]

@[simp] theorem samplePin_inputs (p : Pin) (s : State) : (samplePin p s).2.inputs = s.inputs := by
  simp [samplePin]

@[simp] theorem samplePin_bench (p : Pin) (s : State) : (samplePin p s).2.bench = s.bench := by
  simp [samplePin]

@[simp] theorem samplePin_response (p : Pin) (s : State) : (samplePin p s).2.response = s.response := by
  simp [samplePin]

@[simp] theorem samplePin_pulses (p : Pin) (s : State) : (samplePin p s).2.pulses = s.pulses := by
  simp [samplePin]

@[simp] theorem samplePin_answer (p : Pin) (s : State) : (samplePin p s).2.answer = s.answer := by
  simp [samplePin]

/-! ### Sequences of transactions -/

@[simp] theorem timingWrites_cfg (c1 c2 c3 : Byte) (s : State) : (timingWrites c1 c2 c3 s).cfg = s.cfg := by
  simp [timingWrites]

@[simp] theorem timingWrites_dev (c1 c2 c3 : Byte) (s : State) : (timingWrites c1 c2 c3 s).dev = s.dev := by
  simp [timingWrites]

@[simp] theorem timingWrites_ctl (c1 c2 c3 : Byte) (s : State) : (timingWrites c1 c2 c3 s).ctl = s.ctl := by
  simp [timingWrites]

@[simp] theorem timingWrites_bds (c1 c2 c3 : Byte) (s : State) : (timingWrites c1 c2 c3 s).bds = s.bds := by
  simp [timingWrites]

@[simp] theorem timingWrites_mem (c1 c2 c3 : Byte) (s : State) : (timingWrites c1 c2 c3 s).mem = s.mem := by
  simp [timingWrites]

@[simp] theorem timingWrites_bin (c1 c2 c3 : Byte) (s : State) : (timingWrites c1 c2 c3 s).bin = s.bin := by
  simp [timingWrites]

@[simp] theorem timingWrites_bout (c1 c2 c3 : Byte) (s : State) : (timingWrites c1 c2 c3 s).bout = s.bout := by
  simp [timingWrites]

@[simp] theorem timingWrites_can (c1 c2 c3 : Byte) (s : State) : (timingWrites c1 c2 c3 s).can = s.can := by
  simp [timingWrites]

@[simp] theorem timingWrites_sie (c1 c2 c3 : Byte) (s : State) : (timingWrites c1 c2 c3 s).sie = s.sie := by
  simp [timingWrites]

@[simp] theorem timingWrites_clock (c1 c2 c3 : Byte) (s : State) : (timingWrites c1 c2 c3 s).clock = s.clock := by
  simp [timingWrites]

@[simp] theorem timingWrites_inputs (c1 c2 c3 : Byte) (s : State) : (timingWrites c1 c2 c3 s).inputs = s.inputs := by
  simp [timingWrites]

@[simp] theorem timingWrites_bench (c1 c2 c3 : Byte) (s : State) : (timingWrites c1 c2 c3 s).bench = s.bench := by
  simp [timingWrites]

@[simp] theorem timingWrites_response (c1 c2 c3 : Byte) (s : State) : (timingWrites c1 c2 c3 s).response = s.response := by
  simp [timingWrites]

@[simp] theorem timingWrites_pulses (c1 c2 c3 : Byte) (s : State) : (timingWrites c1 c2 c3 s).pulses = s.pulses := by
  simp [timingWrites]

@[simp] theorem timingWrites_answer (c1 c2 c3 : Byte) (s : State) : (timingWrites c1 c2 c3 s).answer = s.answer := by
  simp [timingWrites]

@[simp] theorem maskWrites_cfg (m0 m1 m2 m3 : Byte) (s : State) : (maskWrites m0 m1 m2 m3 s).cfg = s.cfg := by
  simp [maskWrites]

@[simp] theorem maskWrites_dev (m0 m1 m2 m3 : Byte) (s : State) : (maskWrites m0 m1 m2 m3 s).dev = s.dev := by
  simp [maskWrites]

@[simp] theorem maskWrites_ctl (m0 m1 m2 m3 : Byte) (s : State) : (maskWrites m0 m1 m2 m3 s).ctl = s.ctl := by
  simp [maskWrites]

@[simp] theorem maskWrites_bds (m0 m1 m2 m3 : Byte) (s : State) : (maskWrites m0 m1 m2 m3 s).bds = s.bds := by
  simp [maskWrites]

@[simp] theorem maskWrites_mem (m0 m1 m2 m3 : Byte) (s : State) : (maskWrites m0 m1 m2 m3 s).mem = s.mem := by
  simp [maskWrites]

@[simp] theorem maskWrites_bin (m0 m1 m2 m3 : Byte) (s : State) : (maskWrites m0 m1 m2 m3 s).bin = s.bin := by
  simp [maskWrites]

@[simp] theorem maskWrites_bout (m0 m1 m2 m3 : Byte) (s : State) : (maskWrites m0 m1 m2 m3 s).bout = s.bout := by
  simp [maskWrites]

@[simp] theorem maskWrites_can (m0 m1 m2 m3 : Byte) (s : State) : (maskWrites m0 m1 m2 m3 s).can = s.can := by
  simp [maskWrites]

@[simp] theorem maskWrites_sie (m0 m1 m2 m3 : Byte) (s : State) : (maskWrites m0 m1 m2 m3 s).sie = s.sie := by
  simp [maskWrites]

@[simp] theorem maskWrites_clock (m0 m1 m2 m3 : Byte) (s : State) : (maskWrites m0 m1 m2 m3 s).clock = s.clock := by
  simp [maskWrites]

@[simp] theorem maskWrites_inputs (m0 m1 m2 m3 : Byte) (s : State) : (maskWrites m0 m1 m2 m3 s).inputs = s.inputs := by
  simp [maskWrites]

@[simp] theorem maskWrites_bench (m0 m1 m2 m3 : Byte) (s : State) : (maskWrites m0 m1 m2 m3 s).bench = s.bench := by
  simp [maskWrites]

@[simp] theorem maskWrites_response (m0 m1 m2 m3 : Byte) (s : State) : (maskWrites m0 m1 m2 m3 s).response = s.response := by
  simp [maskWrites]

@[simp] theorem maskWrites_pulses (m0 m1 m2 m3 : Byte) (s : State) : (maskWrites m0 m1 m2 m3 s).pulses = s.pulses := by
  simp [maskWrites]

@[simp] theorem maskWrites_answer (m0 m1 m2 m3 : Byte) (s : State) : (maskWrites m0 m1 m2 m3 s).answer = s.answer := by
  simp [maskWrites]

@[simp] theorem codeWrites_cfg (c0 c1 c2 c3 : Byte) (s : State) : (codeWrites c0 c1 c2 c3 s).cfg = s.cfg := by
  simp [codeWrites]

@[simp] theorem codeWrites_dev (c0 c1 c2 c3 : Byte) (s : State) : (codeWrites c0 c1 c2 c3 s).dev = s.dev := by
  simp [codeWrites]

@[simp] theorem codeWrites_ctl (c0 c1 c2 c3 : Byte) (s : State) : (codeWrites c0 c1 c2 c3 s).ctl = s.ctl := by
  simp [codeWrites]

@[simp] theorem codeWrites_bds (c0 c1 c2 c3 : Byte) (s : State) : (codeWrites c0 c1 c2 c3 s).bds = s.bds := by
  simp [codeWrites]

@[simp] theorem codeWrites_mem (c0 c1 c2 c3 : Byte) (s : State) : (codeWrites c0 c1 c2 c3 s).mem = s.mem := by
  simp [codeWrites]

@[simp] theorem codeWrites_bin (c0 c1 c2 c3 : Byte) (s : State) : (codeWrites c0 c1 c2 c3 s).bin = s.bin := by
  simp [codeWrites]

@[simp] theorem codeWrites_bout (c0 c1 c2 c3 : Byte) (s : State) : (codeWrites c0 c1 c2 c3 s).bout = s.bout := by
  simp [codeWrites]

@[simp] theorem codeWrites_can (c0 c1 c2 c3 : Byte) (s : State) : (codeWrites c0 c1 c2 c3 s).can = s.can := by
  simp [codeWrites]

@[simp] theorem codeWrites_sie (c0 c1 c2 c3 : Byte) (s : State) : (codeWrites c0 c1 c2 c3 s).sie = s.sie := by
  simp [codeWrites]

@[simp] theorem codeWrites_clock (c0 c1 c2 c3 : Byte) (s : State) : (codeWrites c0 c1 c2 c3 s).clock = s.clock := by
  simp [codeWrites]

@[simp] theorem codeWrites_inputs (c0 c1 c2 c3 : Byte) (s : State) : (codeWrites c0 c1 c2 c3 s).inputs = s.inputs := by
  simp [codeWrites]

@[simp] theorem codeWrites_bench (c0 c1 c2 c3 : Byte) (s : State) : (codeWrites c0 c1 c2 c3 s).bench = s.bench := by
  simp [codeWrites]

@[simp] theorem codeWrites_response (c0 c1 c2 c3 : Byte) (s : State) : (codeWrites c0 c1 c2 c3 s).response = s.response := by
  simp [codeWrites]

@[simp] theorem codeWrites_pulses (c0 c1 c2 c3 : Byte) (s : State) : (codeWrites c0 c1 c2 c3 s).pulses = s.pulses := by
  simp [codeWrites]

@[simp] theorem codeWrites_answer (c0 c1 c2 c3 : Byte) (s : State) : (codeWrites c0 c1 c2 c3 s).answer = s.answer := by
  simp [codeWrites]

@[simp] theorem initWrites_cfg (s : State) : (initWrites s).cfg = s.cfg := by
  simp [initWrites]

@[simp] theorem initWrites_dev (s : State) : (initWrites s).dev = s.dev := by
  simp [initWrites]

@[simp] theorem initWrites_ctl (s : State) : (initWrites s).ctl = s.ctl := by
  simp [initWrites]

@[simp] theorem initWrites_bds (s : State) : (initWrites s).bds = s.bds := by
  simp [initWrites]

@[simp] theorem initWrites_mem (s : State) : (initWrites s).mem = s.mem := by
  simp [initWrites]

@[simp] theorem initWrites_bin (s : State) : (initWrites s).bin = s.bin := by
  simp [initWrites]

@[simp] theorem initWrites_bout (s : State) : (initWrites s).bout = s.bout := by
  simp [initWrites]

@[simp] theorem initWrites_can (s : State) : (initWrites s).can = s.can := by
  simp [initWrites]

@[simp] theorem initWrites_sie (s : State) : (initWrites s).sie = s.sie := by
  simp [initWrites]

@[simp] theorem initWrites_clock (s : State) : (initWrites s).clock = s.clock := by
  simp [initWrites]

@[simp] theorem initWrites_inputs (s : State) : (initWrites s).inputs = s.inputs := by
  simp [initWrites]

@[simp] theorem initWrites_bench (s : State) : (initWrites s).bench = s.bench := by
  simp [initWrites]

@[simp] theorem initWrites_response (s : State) : (initWrites s).response = s.response := by
  simp [initWrites]

@[simp] theorem initWrites_pulses (s : State) : (initWrites s).pulses = s.pulses := by
  simp [initWrites]

@[simp] theorem initWrites_answer (s : State) : (initWrites s).answer = s.answer := by
  simp [initWrites]

@[simp] theorem testTxn_cfg (t : TestTxn) (s : State) : (testTxn t s).cfg = s.cfg := by
  cases t <;> simp [testTxn]

@[simp] theorem testTxns_cfg : ∀ (ts : List TestTxn) (s : State), (testTxns ts s).cfg = s.cfg
  | [], _ => rfl
  | t :: ts, s => by rw [testTxns, testTxns_cfg ts, testTxn_cfg]

@[simp] theorem testStage_cfg (g : SelfTestStage) (s : State) : (testStage g s).2.cfg = s.cfg := by
  simp [testStage]

@[simp] theorem testStages_cfg : ∀ (gs : List SelfTestStage) (s : State), (testStages gs s).2.cfg = s.cfg
  | [], _ => rfl
  | g :: gs, s => by simp [testStages, testStages_cfg gs]

@[simp] theorem promoteTxns_cfg : ∀ (ps : List (Fin 3 × Fin 4)) (s : State), (promoteTxns ps s).cfg = s.cfg
  | [], _ => rfl
  | (x, q) :: ps, s => by rw [promoteTxns, promoteTxns_cfg ps, txnBitModify_cfg]

@[simp] theorem sendTxns_cfg (ch : TxChoice) (load : List Byte) (s : State) : (sendTxns ch load s).cfg = s.cfg := by
  simp [sendTxns]

@[simp] theorem testTxn_dev (t : TestTxn) (s : State) : (testTxn t s).dev = s.dev := by
  cases t <;> simp [testTxn]

@[simp] theorem testTxns_dev : ∀ (ts : List TestTxn) (s : State), (testTxns ts s).dev = s.dev
  | [], _ => rfl
  | t :: ts, s => by rw [testTxns, testTxns_dev ts, testTxn_dev]

@[simp] theorem testStage_dev (g : SelfTestStage) (s : State) : (testStage g s).2.dev = s.dev := by
  simp [testStage]

@[simp] theorem testStages_dev : ∀ (gs : List SelfTestStage) (s : State), (testStages gs s).2.dev = s.dev
  | [], _ => rfl
  | g :: gs, s => by simp [testStages, testStages_dev gs]

@[simp] theorem promoteTxns_dev : ∀ (ps : List (Fin 3 × Fin 4)) (s : State), (promoteTxns ps s).dev = s.dev
  | [], _ => rfl
  | (x, q) :: ps, s => by rw [promoteTxns, promoteTxns_dev ps, txnBitModify_dev]

@[simp] theorem sendTxns_dev (ch : TxChoice) (load : List Byte) (s : State) : (sendTxns ch load s).dev = s.dev := by
  simp [sendTxns]

@[simp] theorem testTxn_ctl (t : TestTxn) (s : State) : (testTxn t s).ctl = s.ctl := by
  cases t <;> simp [testTxn]

@[simp] theorem testTxns_ctl : ∀ (ts : List TestTxn) (s : State), (testTxns ts s).ctl = s.ctl
  | [], _ => rfl
  | t :: ts, s => by rw [testTxns, testTxns_ctl ts, testTxn_ctl]

@[simp] theorem testStage_ctl (g : SelfTestStage) (s : State) : (testStage g s).2.ctl = s.ctl := by
  simp [testStage]

@[simp] theorem testStages_ctl : ∀ (gs : List SelfTestStage) (s : State), (testStages gs s).2.ctl = s.ctl
  | [], _ => rfl
  | g :: gs, s => by simp [testStages, testStages_ctl gs]

@[simp] theorem promoteTxns_ctl : ∀ (ps : List (Fin 3 × Fin 4)) (s : State), (promoteTxns ps s).ctl = s.ctl
  | [], _ => rfl
  | (x, q) :: ps, s => by rw [promoteTxns, promoteTxns_ctl ps, txnBitModify_ctl]

@[simp] theorem sendTxns_ctl (ch : TxChoice) (load : List Byte) (s : State) : (sendTxns ch load s).ctl = s.ctl := by
  simp [sendTxns]

@[simp] theorem testTxn_bds (t : TestTxn) (s : State) : (testTxn t s).bds = s.bds := by
  cases t <;> simp [testTxn]

@[simp] theorem testTxns_bds : ∀ (ts : List TestTxn) (s : State), (testTxns ts s).bds = s.bds
  | [], _ => rfl
  | t :: ts, s => by rw [testTxns, testTxns_bds ts, testTxn_bds]

@[simp] theorem testStage_bds (g : SelfTestStage) (s : State) : (testStage g s).2.bds = s.bds := by
  simp [testStage]

@[simp] theorem testStages_bds : ∀ (gs : List SelfTestStage) (s : State), (testStages gs s).2.bds = s.bds
  | [], _ => rfl
  | g :: gs, s => by simp [testStages, testStages_bds gs]

@[simp] theorem promoteTxns_bds : ∀ (ps : List (Fin 3 × Fin 4)) (s : State), (promoteTxns ps s).bds = s.bds
  | [], _ => rfl
  | (x, q) :: ps, s => by rw [promoteTxns, promoteTxns_bds ps, txnBitModify_bds]

@[simp] theorem sendTxns_bds (ch : TxChoice) (load : List Byte) (s : State) : (sendTxns ch load s).bds = s.bds := by
  simp [sendTxns]

@[simp] theorem testTxn_mem (t : TestTxn) (s : State) : (testTxn t s).mem = s.mem := by
  cases t <;> simp [testTxn]

@[simp] theorem testTxns_mem : ∀ (ts : List TestTxn) (s : State), (testTxns ts s).mem = s.mem
  | [], _ => rfl
  | t :: ts, s => by rw [testTxns, testTxns_mem ts, testTxn_mem]

@[simp] theorem testStage_mem (g : SelfTestStage) (s : State) : (testStage g s).2.mem = s.mem := by
  simp [testStage]

@[simp] theorem testStages_mem : ∀ (gs : List SelfTestStage) (s : State), (testStages gs s).2.mem = s.mem
  | [], _ => rfl
  | g :: gs, s => by simp [testStages, testStages_mem gs]

@[simp] theorem promoteTxns_mem : ∀ (ps : List (Fin 3 × Fin 4)) (s : State), (promoteTxns ps s).mem = s.mem
  | [], _ => rfl
  | (x, q) :: ps, s => by rw [promoteTxns, promoteTxns_mem ps, txnBitModify_mem]

@[simp] theorem sendTxns_mem (ch : TxChoice) (load : List Byte) (s : State) : (sendTxns ch load s).mem = s.mem := by
  simp [sendTxns]

@[simp] theorem testTxn_bin (t : TestTxn) (s : State) : (testTxn t s).bin = s.bin := by
  cases t <;> simp [testTxn]

@[simp] theorem testTxns_bin : ∀ (ts : List TestTxn) (s : State), (testTxns ts s).bin = s.bin
  | [], _ => rfl
  | t :: ts, s => by rw [testTxns, testTxns_bin ts, testTxn_bin]

@[simp] theorem testStage_bin (g : SelfTestStage) (s : State) : (testStage g s).2.bin = s.bin := by
  simp [testStage]

@[simp] theorem testStages_bin : ∀ (gs : List SelfTestStage) (s : State), (testStages gs s).2.bin = s.bin
  | [], _ => rfl
  | g :: gs, s => by simp [testStages, testStages_bin gs]

@[simp] theorem promoteTxns_bin : ∀ (ps : List (Fin 3 × Fin 4)) (s : State), (promoteTxns ps s).bin = s.bin
  | [], _ => rfl
  | (x, q) :: ps, s => by rw [promoteTxns, promoteTxns_bin ps, txnBitModify_bin]

@[simp] theorem sendTxns_bin (ch : TxChoice) (load : List Byte) (s : State) : (sendTxns ch load s).bin = s.bin := by
  simp [sendTxns]

@[simp] theorem testTxn_bout (t : TestTxn) (s : State) : (testTxn t s).bout = s.bout := by
  cases t <;> simp [testTxn]

@[simp] theorem testTxns_bout : ∀ (ts : List TestTxn) (s : State), (testTxns ts s).bout = s.bout
  | [], _ => rfl
  | t :: ts, s => by rw [testTxns, testTxns_bout ts, testTxn_bout]

@[simp] theorem testStage_bout (g : SelfTestStage) (s : State) : (testStage g s).2.bout = s.bout := by
  simp [testStage]

@[simp] theorem testStages_bout : ∀ (gs : List SelfTestStage) (s : State), (testStages gs s).2.bout = s.bout
  | [], _ => rfl
  | g :: gs, s => by simp [testStages, testStages_bout gs]

@[simp] theorem promoteTxns_bout : ∀ (ps : List (Fin 3 × Fin 4)) (s : State), (promoteTxns ps s).bout = s.bout
  | [], _ => rfl
  | (x, q) :: ps, s => by rw [promoteTxns, promoteTxns_bout ps, txnBitModify_bout]

@[simp] theorem sendTxns_bout (ch : TxChoice) (load : List Byte) (s : State) : (sendTxns ch load s).bout = s.bout := by
  simp [sendTxns]

@[simp] theorem testTxn_can (t : TestTxn) (s : State) : (testTxn t s).can = s.can := by
  cases t <;> simp [testTxn]

@[simp] theorem testTxns_can : ∀ (ts : List TestTxn) (s : State), (testTxns ts s).can = s.can
  | [], _ => rfl
  | t :: ts, s => by rw [testTxns, testTxns_can ts, testTxn_can]

@[simp] theorem testStage_can (g : SelfTestStage) (s : State) : (testStage g s).2.can = s.can := by
  simp [testStage]

@[simp] theorem testStages_can : ∀ (gs : List SelfTestStage) (s : State), (testStages gs s).2.can = s.can
  | [], _ => rfl
  | g :: gs, s => by simp [testStages, testStages_can gs]

@[simp] theorem promoteTxns_can : ∀ (ps : List (Fin 3 × Fin 4)) (s : State), (promoteTxns ps s).can = s.can
  | [], _ => rfl
  | (x, q) :: ps, s => by rw [promoteTxns, promoteTxns_can ps, txnBitModify_can]

@[simp] theorem sendTxns_can (ch : TxChoice) (load : List Byte) (s : State) : (sendTxns ch load s).can = s.can := by
  simp [sendTxns]

@[simp] theorem testTxn_sie (t : TestTxn) (s : State) : (testTxn t s).sie = s.sie := by
  cases t <;> simp [testTxn]

@[simp] theorem testTxns_sie : ∀ (ts : List TestTxn) (s : State), (testTxns ts s).sie = s.sie
  | [], _ => rfl
  | t :: ts, s => by rw [testTxns, testTxns_sie ts, testTxn_sie]

@[simp] theorem testStage_sie (g : SelfTestStage) (s : State) : (testStage g s).2.sie = s.sie := by
  simp [testStage]

@[simp] theorem testStages_sie : ∀ (gs : List SelfTestStage) (s : State), (testStages gs s).2.sie = s.sie
  | [], _ => rfl
  | g :: gs, s => by simp [testStages, testStages_sie gs]

@[simp] theorem promoteTxns_sie : ∀ (ps : List (Fin 3 × Fin 4)) (s : State), (promoteTxns ps s).sie = s.sie
  | [], _ => rfl
  | (x, q) :: ps, s => by rw [promoteTxns, promoteTxns_sie ps, txnBitModify_sie]

@[simp] theorem sendTxns_sie (ch : TxChoice) (load : List Byte) (s : State) : (sendTxns ch load s).sie = s.sie := by
  simp [sendTxns]

@[simp] theorem testTxn_clock (t : TestTxn) (s : State) : (testTxn t s).clock = s.clock := by
  cases t <;> simp [testTxn]

@[simp] theorem testTxns_clock : ∀ (ts : List TestTxn) (s : State), (testTxns ts s).clock = s.clock
  | [], _ => rfl
  | t :: ts, s => by rw [testTxns, testTxns_clock ts, testTxn_clock]

@[simp] theorem testStage_clock (g : SelfTestStage) (s : State) : (testStage g s).2.clock = s.clock := by
  simp [testStage]

@[simp] theorem testStages_clock : ∀ (gs : List SelfTestStage) (s : State), (testStages gs s).2.clock = s.clock
  | [], _ => rfl
  | g :: gs, s => by simp [testStages, testStages_clock gs]

@[simp] theorem promoteTxns_clock : ∀ (ps : List (Fin 3 × Fin 4)) (s : State), (promoteTxns ps s).clock = s.clock
  | [], _ => rfl
  | (x, q) :: ps, s => by rw [promoteTxns, promoteTxns_clock ps, txnBitModify_clock]

@[simp] theorem sendTxns_clock (ch : TxChoice) (load : List Byte) (s : State) : (sendTxns ch load s).clock = s.clock := by
  simp [sendTxns]

@[simp] theorem testTxn_inputs (t : TestTxn) (s : State) : (testTxn t s).inputs = s.inputs := by
  cases t <;> simp [testTxn]

@[simp] theorem testTxns_inputs : ∀ (ts : List TestTxn) (s : State), (testTxns ts s).inputs = s.inputs
  | [], _ => rfl
  | t :: ts, s => by rw [testTxns, testTxns_inputs ts, testTxn_inputs]

@[simp] theorem testStage_inputs (g : SelfTestStage) (s : State) : (testStage g s).2.inputs = s.inputs := by
  simp [testStage]

@[simp] theorem testStages_inputs : ∀ (gs : List SelfTestStage) (s : State), (testStages gs s).2.inputs = s.inputs
  | [], _ => rfl
  | g :: gs, s => by simp [testStages, testStages_inputs gs]

@[simp] theorem promoteTxns_inputs : ∀ (ps : List (Fin 3 × Fin 4)) (s : State), (promoteTxns ps s).inputs = s.inputs
  | [], _ => rfl
  | (x, q) :: ps, s => by rw [promoteTxns, promoteTxns_inputs ps, txnBitModify_inputs]

@[simp] theorem sendTxns_inputs (ch : TxChoice) (load : List Byte) (s : State) : (sendTxns ch load s).inputs = s.inputs := by
  simp [sendTxns]

@[simp] theorem testTxn_bench (t : TestTxn) (s : State) : (testTxn t s).bench = s.bench := by
  cases t <;> simp [testTxn]

@[simp] theorem testTxns_bench : ∀ (ts : List TestTxn) (s : State), (testTxns ts s).bench = s.bench
  | [], _ => rfl
  | t :: ts, s => by rw [testTxns, testTxns_bench ts, testTxn_bench]

@[simp] theorem testStage_bench (g : SelfTestStage) (s : State) : (testStage g s).2.bench = s.bench := by
  simp [testStage]

@[simp] theorem testStages_bench : ∀ (gs : List SelfTestStage) (s : State), (testStages gs s).2.bench = s.bench
  | [], _ => rfl
  | g :: gs, s => by simp [testStages, testStages_bench gs]

@[simp] theorem promoteTxns_bench : ∀ (ps : List (Fin 3 × Fin 4)) (s : State), (promoteTxns ps s).bench = s.bench
  | [], _ => rfl
  | (x, q) :: ps, s => by rw [promoteTxns, promoteTxns_bench ps, txnBitModify_bench]

@[simp] theorem sendTxns_bench (ch : TxChoice) (load : List Byte) (s : State) : (sendTxns ch load s).bench = s.bench := by
  simp [sendTxns]

@[simp] theorem testTxn_response (t : TestTxn) (s : State) : (testTxn t s).response = s.response := by
  cases t <;> simp [testTxn]

@[simp] theorem testTxns_response : ∀ (ts : List TestTxn) (s : State), (testTxns ts s).response = s.response
  | [], _ => rfl
  | t :: ts, s => by rw [testTxns, testTxns_response ts, testTxn_response]

@[simp] theorem testStage_response (g : SelfTestStage) (s : State) : (testStage g s).2.response = s.response := by
  simp [testStage]

@[simp] theorem testStages_response : ∀ (gs : List SelfTestStage) (s : State), (testStages gs s).2.response = s.response
  | [], _ => rfl
  | g :: gs, s => by simp [testStages, testStages_response gs]

@[simp] theorem promoteTxns_response : ∀ (ps : List (Fin 3 × Fin 4)) (s : State), (promoteTxns ps s).response = s.response
  | [], _ => rfl
  | (x, q) :: ps, s => by rw [promoteTxns, promoteTxns_response ps, txnBitModify_response]

@[simp] theorem sendTxns_response (ch : TxChoice) (load : List Byte) (s : State) : (sendTxns ch load s).response = s.response := by
  simp [sendTxns]

@[simp] theorem testTxn_pulses (t : TestTxn) (s : State) : (testTxn t s).pulses = s.pulses := by
  cases t <;> simp [testTxn]

@[simp] theorem testTxns_pulses : ∀ (ts : List TestTxn) (s : State), (testTxns ts s).pulses = s.pulses
  | [], _ => rfl
  | t :: ts, s => by rw [testTxns, testTxns_pulses ts, testTxn_pulses]

@[simp] theorem testStage_pulses (g : SelfTestStage) (s : State) : (testStage g s).2.pulses = s.pulses := by
  simp [testStage]

@[simp] theorem testStages_pulses : ∀ (gs : List SelfTestStage) (s : State), (testStages gs s).2.pulses = s.pulses
  | [], _ => rfl
  | g :: gs, s => by simp [testStages, testStages_pulses gs]

@[simp] theorem promoteTxns_pulses : ∀ (ps : List (Fin 3 × Fin 4)) (s : State), (promoteTxns ps s).pulses = s.pulses
  | [], _ => rfl
  | (x, q) :: ps, s => by rw [promoteTxns, promoteTxns_pulses ps, txnBitModify_pulses]

@[simp] theorem sendTxns_pulses (ch : TxChoice) (load : List Byte) (s : State) : (sendTxns ch load s).pulses = s.pulses := by
  simp [sendTxns]

@[simp] theorem testTxn_answer (t : TestTxn) (s : State) : (testTxn t s).answer = s.answer := by
  cases t <;> simp [testTxn]

@[simp] theorem testTxns_answer : ∀ (ts : List TestTxn) (s : State), (testTxns ts s).answer = s.answer
  | [], _ => rfl
  | t :: ts, s => by rw [testTxns, testTxns_answer ts, testTxn_answer]

@[simp] theorem testStage_answer (g : SelfTestStage) (s : State) : (testStage g s).2.answer = s.answer := by
  simp [testStage]

@[simp] theorem testStages_answer : ∀ (gs : List SelfTestStage) (s : State), (testStages gs s).2.answer = s.answer
  | [], _ => rfl
  | g :: gs, s => by simp [testStages, testStages_answer gs]

@[simp] theorem promoteTxns_answer : ∀ (ps : List (Fin 3 × Fin 4)) (s : State), (promoteTxns ps s).answer = s.answer
  | [], _ => rfl
  | (x, q) :: ps, s => by rw [promoteTxns, promoteTxns_answer ps, txnBitModify_answer]

@[simp] theorem sendTxns_answer (ch : TxChoice) (load : List Byte) (s : State) : (sendTxns ch load s).answer = s.answer := by
  simp [sendTxns]

end Sys2Proof.Machine
end

