-- ==== Sys2Proof/Laws/Chip.lean ====
section
/-! SUPPORT. The registers of the chip after each of the ways they change, and what a serial transaction puts on the bus
and does to the chip. -/

namespace Sys2Proof.Machine

/-! ### One register -/

theorem Chip.reg_eq (c : Chip) (a : Byte) : c.reg a = c.cell a.toNat := rfl

theorem getD_eq_getElem? (r : Vector Byte 128) (i : Nat) (v : Byte) : r.getD i v = (r[i]?).getD v := by
  rw [Vector.getD, Array.getD_eq_getD_getElem?]
  rw [Vector.getElem?_toArray]

/-- A vector with one place changed, read at any place. -/
theorem getD_setIfInBounds (r : Vector Byte 128) (i j : Nat) (v : Byte) :
    (r.setIfInBounds i v).getD j 0x00 = if i = j ∧ j < 128 then v else r.getD j 0x00 := by
  simp only [getD_eq_getElem?, Vector.getElem?_setIfInBounds]
  by_cases h : i = j
  · subst h
    by_cases hb : i < 128 <;> simp [hb]
  · simp [h]

/-- A register after another one, or itself, is changed from inside the chip. -/
theorem Chip.reg_put (c : Chip) (a b v : Byte) :
    (c.put a v).reg b = if a = b ∧ b.toNat < 128 then v else c.reg b := by
  simp only [Chip.reg, Chip.cell, Chip.put, getD_setIfInBounds]
  simp only [BitVec.toNat_inj]

theorem Chip.reg_put_same (c : Chip) (a v : Byte) (h : a.toNat < 128) : (c.put a v).reg a = v := by
  rw [Chip.reg_put, if_pos ⟨rfl, h⟩]

theorem Chip.reg_put_other (c : Chip) {a b : Byte} (v : Byte) (h : a ≠ b) : (c.put a v).reg b = c.reg b := by
  rw [Chip.reg_put, if_neg fun e => h e.1]

@[simp] theorem Chip.put_sent (c : Chip) (a v : Byte) : (c.put a v).sent = c.sent := rfl
@[simp] theorem Chip.put_onBus (c : Chip) (a v : Byte) : (c.put a v).onBus = c.onBus := rfl

@[simp] theorem Chip.dropAborted_regs (c : Chip) (m : ChipTable) : (c.dropAborted m).regs = c.regs := rfl
@[simp] theorem Chip.dropAborted_sent (c : Chip) (m : ChipTable) : (c.dropAborted m).sent = c.sent := rfl
@[simp] theorem Chip.dropAborted_cell (c : Chip) (m : ChipTable) (a : Nat) : (c.dropAborted m).cell a = c.cell a := rfl
@[simp] theorem Chip.dropAborted_onBus (c : Chip) (m : ChipTable) :
    (c.dropAborted m).onBus = c.onBus.filter fun f => c.txreq m f.slot := rfl

/-- A register of the map after a write over the serial bus. -/
theorem Chip.cell_writeAt (c : Chip) (m : ChipTable) (a b : Nat) (v : Byte) :
    (c.writeAt m a v).cell b =
      if a = b ∧ b < 128 ∧ c.ignores m a = false then mergeBits (m.info b).writable (c.cell b) v else c.cell b := by
  unfold Chip.writeAt
  cases hc : c.ignores m a
  · simp only [Bool.false_eq_true, if_false, Chip.dropAborted_cell]
    simp only [Chip.cell, getD_setIfInBounds]
    by_cases h : a = b
    · subst h
      by_cases hb : a < 128 <;> simp [hb]
    · simp [h]
  · simp

@[simp] theorem Chip.writeAt_sent (c : Chip) (m : ChipTable) (a : Nat) (v : Byte) :
    (c.writeAt m a v).sent = c.sent := by
  unfold Chip.writeAt; split <;> rfl

@[simp] theorem Chip.writeList_sent :
    ∀ (vs : List Byte) (c : Chip) (m : ChipTable) (a : Nat), (c.writeList m a vs).sent = c.sent
  | [], _, _, _ => rfl
  | v :: vs, c, m, a => by rw [Chip.writeList, Chip.writeList_sent vs]; simp

/-- A register that is outside the range of a write keeps its value. -/
theorem Chip.cell_writeList_other :
    ∀ (vs : List Byte) (c : Chip) (m : ChipTable) (a b : Nat), (b < a ∨ a + vs.length ≤ b) →
      (c.writeList m a vs).cell b = c.cell b
  | [], _, _, _, _, _ => rfl
  | v :: vs, c, m, a, b, h => by
    simp only [List.length_cons] at h
    rw [Chip.writeList, Chip.cell_writeList_other vs _ m (a + 1) b (by omega), Chip.cell_writeAt,
      if_neg (fun e => by omega)]

/-- BIT MODIFY of a register that supports it, as one write. -/
theorem Chip.bitModify_eq (c : Chip) (m : ChipTable) (a : Nat) (k d : Byte) (h : (m.info a).bitModify = true) :
    c.bitModify m a k d = c.writeAt m a (mergeBits k (c.cell a) d) := by
  unfold Chip.bitModify
  rw [if_pos h]

@[simp] theorem Chip.bitModify_sent (c : Chip) (m : ChipTable) (a : Nat) (k d : Byte) :
    (c.bitModify m a k d).sent = c.sent := by
  unfold Chip.bitModify; split <;> simp

/-- A register after RESET. -/
theorem Chip.cell_reset (c : Chip) (m : ChipTable) (n a : Nat) (h : a < 128) :
    (c.reset m n).cell a = (m.info a).reset.getD (Config.freeByte (n + a)) := by
  simp only [Chip.cell, Chip.reset, ChipTable.info, Vector.getD, Array.getD_eq_getD_getElem?]
  simp only [Vector.getElem?_toArray]
  rw [Vector.getElem?_eq_getElem h, Vector.getElem?_eq_getElem h]
  simp

@[simp] theorem Chip.reset_sent (c : Chip) (m : ChipTable) (n : Nat) : (c.reset m n).sent = c.sent := by
  unfold Chip.reset; rfl
@[simp] theorem Chip.reset_onBus (c : Chip) (m : ChipTable) (n : Nat) : (c.reset m n).onBus = none := by
  unfold Chip.reset; rfl

/-- A bit of a byte made of two by a mask. -/
theorem getLsbD_mergeBits (k old new : Byte) (i : Nat) :
    (mergeBits k old new).getLsbD i = if k.getLsbD i then new.getLsbD i else old.getLsbD i := by
  unfold mergeBits
  simp only [BitVec.getLsbD_or, BitVec.getLsbD_and, BitVec.getLsbD_not]
  by_cases hi : i < 8
  · cases k.getLsbD i <;> simp [hi]
  · simp [BitVec.getLsbD_of_ge _ _ (by omega : 8 ≤ i)]

@[simp] theorem mergeBits_full (old new : Byte) : mergeBits 0xFF old new = new := by
  refine BitVec.eq_of_getLsbD_eq fun i hi => ?_
  rw [getLsbD_mergeBits, if_pos (by revert i; decide)]

@[simp] theorem mergeBits_zero (old new : Byte) : mergeBits 0x00 old new = old := by
  refine BitVec.eq_of_getLsbD_eq fun i hi => ?_
  rw [getLsbD_mergeBits, if_neg (by simp)]

/-! ### The default of `CHIP` -/

@[simp] theorem mcp2515_cmdReset : mcp2515.cmdReset = 0xC0 := rfl
@[simp] theorem mcp2515_cmdRead : mcp2515.cmdRead = 0x03 := rfl
@[simp] theorem mcp2515_cmdWrite : mcp2515.cmdWrite = 0x02 := rfl
@[simp] theorem mcp2515_cmdBitModify : mcp2515.cmdBitModify = 0x05 := rfl
@[simp] theorem mcp2515_cmdReadStatus : mcp2515.cmdReadStatus = 0xA0 := rfl
@[simp] theorem mcp2515_bfpctrl : mcp2515.bfpctrl = 0x0C := rfl
@[simp] theorem mcp2515_canstat : mcp2515.canstat = 0x0E := rfl
@[simp] theorem mcp2515_canctrl : mcp2515.canctrl = 0x0F := rfl
@[simp] theorem mcp2515_tecReg : mcp2515.tecReg = 0x1C := rfl
@[simp] theorem mcp2515_recReg : mcp2515.recReg = 0x1D := rfl
@[simp] theorem mcp2515_cnf1 : mcp2515.cnf1 = 0x2A := rfl
@[simp] theorem mcp2515_cnf2 : mcp2515.cnf2 = 0x29 := rfl
@[simp] theorem mcp2515_cnf3 : mcp2515.cnf3 = 0x28 := rfl
@[simp] theorem mcp2515_caninte : mcp2515.caninte = 0x2B := rfl
@[simp] theorem mcp2515_canintf : mcp2515.canintf = 0x2C := rfl
@[simp] theorem mcp2515_eflg : mcp2515.eflg = 0x2D := rfl
@[simp] theorem mcp2515_txreq : mcp2515.txreq = 3 := rfl
@[simp] theorem mcp2515_txp : mcp2515.txp = 0 := rfl
@[simp] theorem mcp2515_bukt : mcp2515.bukt = 2 := rfl
@[simp] theorem mcp2515_sid : mcp2515.sid = 5 := rfl
@[simp] theorem mcp2515_exide : mcp2515.exide = 3 := rfl
@[simp] theorem mcp2515_eid : mcp2515.eid = 0 := rfl
@[simp] theorem mcp2515_errif : mcp2515.errif = 5 := rfl
@[simp] theorem mcp2515_ewarn : mcp2515.ewarn = 0 := rfl
@[simp] theorem mcp2515_rxep : mcp2515.rxep = 3 := rfl
@[simp] theorem mcp2515_txep : mcp2515.txep = 4 := rfl
@[simp] theorem mcp2515_txbo : mcp2515.txbo = 5 := rfl
@[simp] theorem mcp2515_opmod : mcp2515.opmod = 5 := rfl
@[simp] theorem mcp2515_cmdLoadTx : mcp2515.cmdLoadTx = #v[0x40, 0x42, 0x44] := rfl
@[simp] theorem mcp2515_cmdReadRx : mcp2515.cmdReadRx = #v[0x90, 0x94] := rfl
@[simp] theorem mcp2515_rxf : mcp2515.rxf = #v[0x00, 0x04, 0x08, 0x10, 0x14, 0x18] := rfl
@[simp] theorem mcp2515_rxm : mcp2515.rxm = #v[0x20, 0x24] := rfl
@[simp] theorem mcp2515_txbctrl : mcp2515.txbctrl = #v[0x30, 0x40, 0x50] := rfl
@[simp] theorem mcp2515_rxbctrl : mcp2515.rxbctrl = #v[0x60, 0x70] := rfl
@[simp] theorem mcp2515_rxbsidh : mcp2515.rxbsidh = #v[0x61, 0x71] := rfl
@[simp] theorem mcp2515_statusRxif : mcp2515.statusRxif = #v[0, 1] := rfl
@[simp] theorem mcp2515_statusTxreq : mcp2515.statusTxreq = #v[2, 4, 6] := rfl
@[simp] theorem mcp2515_statusTxif : mcp2515.statusTxif = #v[3, 5, 7] := rfl
@[simp] theorem mcp2515_bfm : mcp2515.bfm = #v[0, 1] := rfl
@[simp] theorem mcp2515_bfe : mcp2515.bfe = #v[2, 3] := rfl
@[simp] theorem mcp2515_bfs : mcp2515.bfs = #v[4, 5] := rfl
@[simp] theorem mcp2515_rxif : mcp2515.rxif = #v[0, 1] := rfl
@[simp] theorem mcp2515_txif : mcp2515.txif = #v[2, 3, 4] := rfl
@[simp] theorem mcp2515_rxovr : mcp2515.rxovr = #v[6, 7] := rfl

@[simp] theorem mcp2515_ctrl (x : Fin 3) : mcp2515.ctrl x = BitVec.ofNat 8 (0x30 + 0x10 * x.val) := by
  revert x; decide
@[simp] theorem mcp2515_txSidh (x : Fin 3) : mcp2515.txSidh x = 0x31 + 0x10 * x.val := by revert x; decide
@[simp] theorem mcp2515_rxSidh (b : Fin 2) : mcp2515.rxSidh b = 0x61 + 0x10 * b.val := by revert b; decide
@[simp] theorem mcp2515_txpMask : mcp2515.txpMask = 0x03 := rfl
@[simp] theorem mcp2515_txpField (p : Fin 4) : mcp2515.txpField p = BitVec.ofNat 8 p.val := by revert p; decide
@[simp] theorem mcp2515_cmdLoadTx_get (x : Fin 3) : mcp2515.cmdLoadTx[x] = BitVec.ofNat 8 (0x40 + 2 * x.val) := by
  revert x; decide
@[simp] theorem mcp2515_cmdReadRx_get (b : Fin 2) : mcp2515.cmdReadRx[b] = BitVec.ofNat 8 (0x90 + 4 * b.val) := by
  revert b; decide

/-- The code in a standard-frame slot of the reference chip (43_can_config.md R408). -/
@[simp] theorem mcp2515_standardCode (c0 c1 c2 c3 : Byte) :
    standardCode mcp2515 c0 c1 c2 c3 = [c0, c1 &&& 0xF7, c2, c3] := rfl
/-- The code in an extended-frame slot of the reference chip (43_can_config.md R408). -/
@[simp] theorem mcp2515_extendedCode (c0 c1 c2 c3 : Byte) :
    extendedCode mcp2515 c0 c1 c2 c3 = [c0, c1 ||| 0x08, c2, c3] := rfl

/-- What is known of a register of the reference chip. -/
theorem mcp2515_info {a : Nat} (h : a < 128) : mcp2515.info a = referenceRegister a := by
  unfold ChipTable.info mcp2515 Vector.getD
  rw [Array.getD_eq_getD_getElem?, Vector.getElem?_toArray, Vector.getElem?_eq_getElem h]
  simp

/-! ### What goes over the bus -/

theorem State.sentOnBus_exchange (s : State) (mosi reply : List Byte) (c : Chip) :
    (s.exchange mosi reply c).txns.map SerialTxn.mosi = s.txns.map SerialTxn.mosi ++ [mosi] := by
  simp [State.exchange]

@[simp] theorem txnReset_mosi (s : State) :
    (txnReset s).txns.map SerialTxn.mosi = s.txns.map SerialTxn.mosi ++ [[s.cfg.chip.cmdReset]] := by
  unfold txnReset; simp only [State.sentOnBus_exchange, State.draw_txns, letOutside_txns, letOutside_cfg]

@[simp] theorem txnRead_mosi (a : Byte) (s : State) :
    (txnRead a s).2.txns.map SerialTxn.mosi = s.txns.map SerialTxn.mosi ++ [[s.cfg.chip.cmdRead, a, 0x00]] := by
  unfold txnRead; simp only [State.sentOnBus_exchange, State.draw_txns, letOutside_txns, letOutside_cfg]

@[simp] theorem txnWrite_mosi (a : Byte) (ds : List Byte) (s : State) :
    (txnWrite a ds s).txns.map SerialTxn.mosi = s.txns.map SerialTxn.mosi ++ [s.cfg.chip.cmdWrite :: a :: ds] := by
  unfold txnWrite; simp only [State.sentOnBus_exchange, letOutside_txns, letOutside_cfg]

@[simp] theorem txnBitModify_mosi (a k d : Byte) (s : State) :
    (txnBitModify a k d s).txns.map SerialTxn.mosi = s.txns.map SerialTxn.mosi ++ [[s.cfg.chip.cmdBitModify, a, k, d]] := by
  unfold txnBitModify; simp only [State.sentOnBus_exchange, letOutside_txns, letOutside_cfg]

@[simp] theorem txnReadStatus_mosi (s : State) :
    (txnReadStatus s).2.txns.map SerialTxn.mosi = s.txns.map SerialTxn.mosi ++ [[s.cfg.chip.cmdReadStatus, 0x00]] := by
  unfold txnReadStatus; simp only [State.sentOnBus_exchange, letOutside_txns, letOutside_cfg]

@[simp] theorem txnLoadTx_mosi (x : Fin 3) (ds : List Byte) (s : State) :
    (txnLoadTx x ds s).txns.map SerialTxn.mosi =
      s.txns.map SerialTxn.mosi ++ [s.cfg.chip.cmdLoadTx[x] :: ds] := by
  unfold txnLoadTx; simp only [State.sentOnBus_exchange, letOutside_txns, letOutside_cfg]

@[simp] theorem txnReadRx_mosi (b : Fin 2) (s : State) :
    (txnReadRx b s).2.txns.map SerialTxn.mosi = s.txns.map SerialTxn.mosi ++
      [s.cfg.chip.cmdReadRx[b] :: List.replicate (5 + (letOutside s).chip.rxLength s.cfg.chip b) 0x00] := by
  unfold txnReadRx; simp only [State.sentOnBus_exchange, letOutside_txns, letOutside_cfg]

@[simp] theorem samplePin_mosi (p : Pin) (s : State) :
    (samplePin p s).2.txns.map SerialTxn.mosi = s.txns.map SerialTxn.mosi := by
  unfold samplePin; simp only [letOutside_txns]

@[simp] theorem promoteTxns_mosi : ∀ (ps : List (Fin 3 × Fin 4)) (s : State),
    (promoteTxns ps s).txns.map SerialTxn.mosi = s.txns.map SerialTxn.mosi ++
      ps.map fun p =>
        [s.cfg.chip.cmdBitModify, s.cfg.chip.ctrl p.1, s.cfg.chip.txpMask, s.cfg.chip.txpField p.2]
  | [], s => by simp [promoteTxns]
  | (x, q) :: ps, s => by rw [promoteTxns, promoteTxns_mosi ps]; simp

/-! ### What the chip does with it -/

@[simp] theorem txnReset_chip (s : State) :
    (txnReset s).chip = (letOutside s).chip.reset s.cfg.chip (letOutside s).draws := by
  simp [txnReset]
@[simp] theorem txnRead_chip (a : Byte) (s : State) : (txnRead a s).2.chip = (letOutside s).chip := rfl
@[simp] theorem txnWrite_chip (a : Byte) (ds : List Byte) (s : State) :
    (txnWrite a ds s).chip = (letOutside s).chip.writeList s.cfg.chip a.toNat ds := by
  simp [txnWrite]
@[simp] theorem txnBitModify_chip (a k d : Byte) (s : State) :
    (txnBitModify a k d s).chip = (letOutside s).chip.bitModify s.cfg.chip a.toNat k d := by
  simp [txnBitModify]
@[simp] theorem txnReadStatus_chip (s : State) : (txnReadStatus s).2.chip = (letOutside s).chip := rfl
@[simp] theorem txnReadStatus_value (s : State) :
    (txnReadStatus s).1 = (letOutside s).chip.status s.cfg.chip := by
  simp [txnReadStatus]
@[simp] theorem txnLoadTx_chip (x : Fin 3) (ds : List Byte) (s : State) :
    (txnLoadTx x ds s).chip = (letOutside s).chip.writeList s.cfg.chip (s.cfg.chip.txSidh x) ds := by
  simp [txnLoadTx]
@[simp] theorem txnReadRx_chip (b : Fin 2) (s : State) :
    (txnReadRx b s).2.chip = (letOutside s).chip.release s.cfg.chip b := by
  simp [txnReadRx]

/-- With nothing scheduled, nothing happens outside. -/
theorem letOutside_of_nil {s : State} (h : s.during = []) : letOutside s = s := by
  unfold letOutside; rw [h]

/-- What happens outside does not look at what the driver remembers. -/
theorem outsideActs_withCan : ∀ (os : List Outside) (s : State) (k : Can),
    outsideActs os { s with can := k } = { outsideActs os s with can := k }
  | [], _, _ => rfl
  | o :: os, s, k => by
    have h : outsideAct o { s with can := k } = { outsideAct o s with can := k } := by cases o <;> rfl
    rw [outsideActs, h, outsideActs_withCan os, outsideActs]

theorem letOutside_withCan (s : State) (k : Can) :
    letOutside { s with can := k } = { letOutside s with can := k } := by
  have hd : s.during = [] ∨ ∃ os rest, s.during = os :: rest := by cases s.during <;> simp
  rcases hd with h | ⟨os, rest, h⟩
  · rw [letOutside_of_nil h, letOutside_of_nil (s := { s with can := k }) h]
  · unfold letOutside
    simp only [h]
    exact outsideActs_withCan os { s with during := rest } k

end Sys2Proof.Machine
end

