-- ==== Sys2Proof/Laws/Control.lean ====
section
/-! SUPPORT. What each stage of a control transfer, each USB control request and each SIE event can do. -/

namespace Sys2Proof.Machine

/-! ### Stages -/

@[simp] theorem length_substBytes (cfg : Params) (subst : Bool) :
    ∀ (ds : List Byte) (o : Nat), (substBytes cfg subst o ds).length = ds.length
  | [], _ => rfl
  | d :: ds, o => by simp [substBytes, length_substBytes cfg subst ds]

theorem getElem_substBytes (cfg : Params) (subst : Bool) :
    ∀ (ds : List Byte) (o j : Nat) (h : j < (substBytes cfg subst o ds).length) (h' : j < ds.length),
      (substBytes cfg subst o ds)[j] = substByte cfg subst (o + j) ds[j]
  | [], _, _, _, h' => absurd h' (Nat.not_lt_zero _)
  | d :: ds, o, 0, _, _ => rfl
  | d :: ds, o, j + 1, h, h' => by
    have := getElem_substBytes cfg subst ds (o + 1) j (by simpa [substBytes] using h) (by simpa using h')
    simpa [substBytes, Nat.add_assoc, Nat.add_comm 1 j] using this

/-- The next packet of a transfer is no longer than endpoint 0's packets. -/
theorem length_chunkBytes_le (cfg : Params) (x : Xfer) : (chunkBytes cfg x).length ≤ min cfg.ep0Size.bytes x.rem := by
  simp [chunkBytes]

theorem length_chunkBytes {cfg : Params} {x : Xfer} (h : x.off + x.rem ≤ x.data.length) :
    (chunkBytes cfg x).length = min cfg.ep0Size.bytes x.rem := by
  simp only [chunkBytes, length_substBytes, List.length_take, List.length_drop]
  omega

/-- The state after one packet of a transfer is sent. -/
def chunkSent (x : Xfer) (s : State) : State :=
  { s with
    mem := s.mem.writeList (Buf.ep0in.base + 0) (chunkBytes s.cfg x)
    bds := { s.bds with ep0in := ⟨.sie, min s.cfg.ep0Size.bytes x.rem⟩ }
    ctl := { s.ctl with xfer := some { x with
      off := x.off + min s.cfg.ep0Size.bytes x.rem, rem := x.rem - min s.cfg.ep0Size.bytes x.rem } } }

theorem sendChunk_eq_next {x : Xfer} {s t : State} :
    sendChunk x s = .next t ↔ (s.bd .ep0in).own = .sw ∧ t = chunkSent x s := by
  unfold sendChunk
  simp only [andThen_eq_next]
  constructor
  · rintro ⟨m, hm, n, hn, ht⟩
    have hm' := memWriteList_next .ep0in hm
    subst hm'
    obtain ⟨ho, rfl⟩ := arm_eq_next.mp hn
    cases ht
    exact ⟨ho, rfl⟩
  · rintro ⟨ho, rfl⟩
    have hle : 0 + (chunkBytes s.cfg x).length ≤ Buf.ep0in.size s.cfg := by
      have := length_chunkBytes_le s.cfg x
      show 0 + _ ≤ s.cfg.ep0Size.bytes
      omega
    exact ⟨_, memWriteList_eq .ep0in ho hle, _, arm_eq (s := { s with mem := _ }) ho, rfl⟩

theorem startIn_eq_next {data : List Byte} {wLength : Half} {subst : Bool} {s t : State} :
    startIn data wLength subst s = .next t ↔
      (s.bd .ep0in).own = .sw ∧ t = chunkSent (newXfer s.cfg data wLength subst) s := by
  unfold startIn
  rw [sendChunk_eq_next]
  rfl

theorem statusIn_eq_next {s t : State} :
    statusIn s = .next t ↔ (s.bd .ep0in).own = .sw ∧ t = s.setBd .ep0in ⟨.sie, 0⟩ := arm_eq_next

/-- `Continue(x)` answers one of three states: another packet, the zero-length packet, or the end of the transfer. -/
theorem continueIn_next {x : Xfer} {s t : State} (h : continueIn x s = .next t) :
    (0 < x.rem ∧ (s.bd .ep0in).own = .sw ∧ t = chunkSent x s) ∨
    (x.rem = 0 ∧ x.zlpDue = true ∧ (s.bd .ep0in).own = .sw ∧
      t = { s.setBd .ep0in ⟨.sie, 0⟩ with ctl := { s.ctl with xfer := some { x with zlpDue := false } } }) ∨
    (x.rem = 0 ∧ x.zlpDue = false ∧ t = { s with ctl := { s.ctl with xfer := none } }) := by
  unfold continueIn at h
  split at h
  · next hr =>
    obtain ⟨ho, rfl⟩ := sendChunk_eq_next.mp h
    exact .inl ⟨hr, ho, rfl⟩
  · next hr =>
    split at h
    · next hz =>
      obtain ⟨ho, rfl⟩ := arm_eq_next.mp h
      exact .inr (.inl ⟨by omega, hz, ho, rfl⟩)
    · next hz =>
      cases h
      exact .inr (.inr ⟨by omega, by simpa using hz, rfl⟩)

/-! ### Requests -/

/-- What a USB control request can do to the state that its SETUP prologue left. -/
inductive SetupOutcome (s : State) : State → Prop where
  | stalls : SetupOutcome s (raiseStall s)
  | replies (data : List Byte) (wLength : Half) (subst : Bool) (ho : (s.bd .ep0in).own = .sw) :
    SetupOutcome s (chunkSent (newXfer s.cfg data wLength subst) s)
  | acknowledges (ho : (s.bd .ep0in).own = .sw) : SetupOutcome s (s.setBd .ep0in ⟨.sie, 0⟩)
  | setsHalt (e : Endpoint) (ho : (s.bd .ep0in).own = .sw) :
    SetupOutcome s ((setHalt e true s).setBd .ep0in ⟨.sie, 0⟩)
  | clearsHalt (e : Endpoint) (ho : (s.bd .ep0in).own = .sw) :
    SetupOutcome s ((toggleReset e (setHalt e false s)).setBd .ep0in ⟨.sie, 0⟩)
  | setsAddress (a : BitVec 7) (ho : (s.bd .ep0in).own = .sw) :
    SetupOutcome s
      (({ s with ctl := { s.ctl with pendingAddr := some a } } : State).setBd .ep0in ⟨.sie, 0⟩)
  | configures (c : Byte) (hc : c = 0 ∨ c = s.cfg.configValue) (u : State)
    (hu : bulkReset (c != 0) (clearEndpoints { s with dev := { s.dev with config := c } }) = .next u)
    (ho : (u.bd .ep0in).own = .sw) : SetupOutcome s (u.setBd .ep0in ⟨.sie, 0⟩)
  | awaitsLineCoding : SetupOutcome s { s with ctl := { s.ctl with lcPending := true } }

theorem SetupOutcome.ofStartIn {data : List Byte} {wLength : Half} {subst : Bool} {s t : State}
    (h : startIn data wLength subst s = .next t) : SetupOutcome s t := by
  obtain ⟨ho, rfl⟩ := startIn_eq_next.mp h
  exact .replies data wLength subst ho

theorem SetupOutcome.ofStatusIn {s t : State} (h : statusIn s = .next t) : SetupOutcome s t := by
  obtain ⟨ho, rfl⟩ := statusIn_eq_next.mp h
  exact .acknowledges ho

theorem SetupOutcome.ofStall {s t : State} (h : (Host.Outcome.next (raiseStall s) : Res) = .next t) :
    SetupOutcome s t := by
  cases h; exact .stalls

theorem execGetStatus_outcome {d : BitVec 1} {r : BitVec 5} {v x l : Half} {s t : State}
    (h : execGetStatus d r v x l s = .next t) : SetupOutcome s t := by
  unfold execGetStatus at h
  split at h
  · exact .ofStall h
  · split at h
    · exact .ofStartIn h
    · split at h
      · exact .ofStartIn h
      · exact .ofStall h

theorem execSetFeature_outcome {d : BitVec 1} {r : BitVec 5} {v x l : Half} {s t : State}
    (h : execSetFeature d r v x l s = .next t) : SetupOutcome s t := by
  unfold execSetFeature at h
  split at h
  · exact .ofStall h
  · split at h
    · next e _ =>
      obtain ⟨ho, rfl⟩ := statusIn_eq_next.mp h
      exact .setsHalt e ho
    · split at h
      · exact .ofStatusIn h
      · exact .ofStall h

theorem execClearFeature_outcome {d : BitVec 1} {r : BitVec 5} {v x l : Half} {s t : State}
    (h : execClearFeature d r v x l s = .next t) : SetupOutcome s t := by
  unfold execClearFeature at h
  split at h
  · exact .ofStall h
  · split at h
    · next e _ =>
      obtain ⟨ho, rfl⟩ := statusIn_eq_next.mp h
      exact .clearsHalt e ho
    · split at h
      · exact .ofStatusIn h
      · exact .ofStall h

theorem execSetAddress_outcome {d : BitVec 1} {r : BitVec 5} {v x l : Half} {s t : State}
    (h : execSetAddress d r v x l s = .next t) : SetupOutcome s t := by
  unfold execSetAddress at h
  split at h
  · exact .ofStall h
  · obtain ⟨ho, rfl⟩ := statusIn_eq_next.mp h
    exact .setsAddress _ ho

theorem execSetConfiguration_outcome {d : BitVec 1} {r : BitVec 5} {v x l : Half} {s t : State}
    (h : execSetConfiguration d r v x l s = .next t) : SetupOutcome s t := by
  unfold execSetConfiguration at h
  split at h
  · next hc =>
    obtain ⟨u, hu, ht⟩ := andThen_eq_next.mp h
    obtain ⟨ho, rfl⟩ := statusIn_eq_next.mp ht
    exact .configures _ hc u hu ho
  · exact .ofStall h

theorem execSetLineCoding_outcome {d : BitVec 1} {r : BitVec 5} {v x l : Half} {s t : State}
    (h : execSetLineCoding d r v x l s = .next t) : SetupOutcome s t := by
  unfold execSetLineCoding at h
  split at h
  · exact .ofStatusIn h
  · cases h; exact .awaitsLineCoding

/-- What the dispatch of a SETUP packet can do, whatever the packet. -/
theorem dispatchSetup_outcome {p : Except DecodeError Instr} {s t : State} (h : dispatchSetup p s = .next t) :
    SetupOutcome s t := by
  unfold dispatchSetup at h
  split at h
  case h_1 => exact execGetStatus_outcome h
  case h_2 => exact execClearFeature_outcome h
  case h_3 => exact execSetFeature_outcome h
  case h_4 => exact execSetAddress_outcome h
  case h_5 =>
    unfold execGetDescriptorDevice at h
    split at h
    · exact .ofStartIn h
    · exact .ofStall h
  case h_6 =>
    unfold execGetDescriptorConfiguration at h
    split at h
    · exact .ofStartIn h
    · exact .ofStall h
  case h_7 =>
    unfold execGetDescriptorString at h
    split at h
    · exact .ofStartIn h
    · exact .ofStall h
  case h_8 => exact .ofStall h
  case h_9 => exact .ofStartIn h
  case h_10 => exact execSetConfiguration_outcome h
  case h_11 =>
    unfold execGetInterface at h
    split at h
    · exact .ofStartIn h
    · exact .ofStall h
  case h_12 =>
    unfold execSetInterface at h
    split at h
    · exact .ofStatusIn h
    · exact .ofStall h
  case h_13 => exact .ofStartIn h
  case h_14 => exact .ofStatusIn h
  case h_15 => exact .ofStartIn h
  case h_16 => exact execSetLineCoding_outcome h
  case h_17 => exact .ofStartIn h
  case h_18 => exact .ofStatusIn h
  case h_19 => exact .ofStall h

/-! ### Events -/

/-- What the handling of a received SETUP packet can do. -/
theorem handleSetup_next {s t : State} (h : handleSetup s = .next t) : SetupOutcome (leaveStall s) t := by
  unfold handleSetup at h
  split at h
  · exact absurd h (by simp)
  · exact dispatchSetup_outcome h

/-- What the handling of a non-setup OUT transaction can do. -/
theorem handleEp0Data_next {s t : State} (h : handleEp0Data s = .next t) :
    (s.ctl.lcPending = true ∧ (s.bd .ep0in).own = .sw ∧ ∃ lc : Vector Byte 7,
      t = ({ s with dev := { s.dev with lineCoding := lc }, ctl := { s.ctl with lcPending := false } } : State).setBd
        .ep0in ⟨.sie, 0⟩) ∨
    (s.ctl.lcPending = false ∧ t = { s with ctl := { s.ctl with xfer := none } }) := by
  unfold handleEp0Data at h
  split at h
  · next hl =>
    unfold lineCodingData at h
    split at h
    · exact absurd h (by simp)
    · obtain ⟨ho, rfl⟩ := statusIn_eq_next.mp h
      exact .inl ⟨hl, ho, _, rfl⟩
  · next hl =>
    cases h
    exact .inr ⟨by simpa using hl, rfl⟩

/-- Endpoint-0 OUT completion: a SETUP or a data stage is handled, and then the endpoint is re-armed. -/
theorem handleEp0Out_next {s t : State} (h : handleEp0Out s = .next t) :
    (s.bd .ep0out).own = .sw ∧ ∃ u, (u.bd .ep0out).own = .sw ∧
      t = { u with bds := { u.bds with ep0setup := false, ep0out := ⟨.sie, u.cfg.ep0Size.bytes⟩ } } ∧
      ((s.bds.ep0setup = true ∧ handleSetup s = .next u) ∨ (s.bds.ep0setup = false ∧ handleEp0Data s = .next u)) := by
  unfold handleEp0Out at h
  split at h
  · exact absurd h (by simp)
  · next ho =>
    obtain ⟨u, hu, ht⟩ := andThen_eq_next.mp h
    obtain ⟨hou, rfl⟩ := rearmEp0out_eq_next.mp ht
    refine ⟨Owner.ne_sie.mp ho, u, hou, rfl, ?_⟩
    split at hu
    · next hs => exact .inl ⟨hs, hu⟩
    · next hs => exact .inr ⟨by simpa using hs, hu⟩

/-- Endpoint-0 IN completion: a pending address is applied, a transfer goes on, or nothing happens. -/
theorem handleEp0In_next {s t : State} (h : handleEp0In s = .next t) :
    (∃ a, s.ctl.pendingAddr = some a ∧
      t = { s with dev := { s.dev with addr := a }, ctl := { s.ctl with pendingAddr := none } }) ∨
    (s.ctl.pendingAddr = none ∧ ∃ x, s.ctl.xfer = some x ∧ continueIn x s = .next t) ∨
    (s.ctl.pendingAddr = none ∧ s.ctl.xfer = none ∧ t = s) := by
  unfold handleEp0In at h
  split at h
  · next a ha => cases h; exact .inl ⟨a, ha, rfl⟩
  · next ha =>
    split at h
    · next x hx => exact .inr (.inl ⟨ha, x, hx, h⟩)
    · next hx => cases h; exact .inr (.inr ⟨ha, hx, rfl⟩)

/-- What a USB bus reset does before `BulkReset` (40_usb_control.md R240). -/
def busResetTaken (s : State) : State :=
  let u := leaveStall (clearEndpoints { s with dev := { s.dev with addr := 0, config := 0 } })
  { u with bds := { u.bds with ep0in := ⟨.sw, 0⟩, ep0setup := false, ep0out := ⟨.sie, u.cfg.ep0Size.bytes⟩ } }

/-- A USB bus reset answers exactly when the block owns both buffers of endpoint 0. -/
theorem handleBusReset_eq_next {s t : State} :
    handleBusReset s = .next t ↔
      (s.bd .ep0in).own = .sw ∧ (s.bd .ep0out).own = .sw ∧ t = bulkTakeBack (busResetTaken s) := by
  unfold handleBusReset resetEp0
  by_cases hi : (s.bd .ep0in).own = .sie
  · simp only [hi, reduceCtorEq, false_and, iff_false]
    rw [if_pos (show ((leaveStall (clearEndpoints
      { s with dev := { s.dev with addr := 0, config := 0 } })).bd .ep0in).own = .sie from hi)]
    simp
  · rw [if_neg (show ¬((leaveStall (clearEndpoints
      { s with dev := { s.dev with addr := 0, config := 0 } })).bd .ep0in).own = .sie from hi), andThen_eq_next]
    constructor
    · rintro ⟨u, hu, ht⟩
      obtain ⟨ho, rfl⟩ := rearmEp0out_eq_next.mp hu
      cases ht
      exact ⟨Owner.ne_sie.mp hi, ho, rfl⟩
    · rintro ⟨-, ho, rfl⟩
      exact ⟨_, rearmEp0out_eq_next.mpr ⟨ho, rfl⟩, rfl⟩

/-- USB_POLL answers when its three parts do. -/
theorem execUsbPoll_eq_next {s t : State} :
    execUsbPoll s = .next t ↔
      ∃ u v w, serviceSie s = .next u ∧ bulkOutZeroLength u = .next v ∧ idleStep v = .next w ∧
        t = respond .ok [] w := by
  unfold execUsbPoll
  simp only [andThen_eq_next]
  constructor
  · rintro ⟨u, hu, v, hv, w, hw, ht⟩
    cases ht
    exact ⟨u, v, w, hu, hv, hw, rfl⟩
  · rintro ⟨u, v, w, hu, hv, hw, rfl⟩
    exact ⟨u, hu, v, hv, w, hw, rfl⟩

end Sys2Proof.Machine
end

