-- ==== Sys2Proof/Laws/PerInstr.lean ====
section
/-! SUPPORT. One lemma per operation about its encoding: how many bytes it has, and its first byte. -/

namespace Sys2Proof.Laws

/-- The encoding of a well-formed operation, with the commands of any CAN chip, has the length that its class and its
first byte fix; a serial command begins with a command byte of the chip and has, with the default chip, at least the
bytes of that command's shortest transaction (30_encoding.md R142, R150, R161). -/
def EncodedLength.Statement (i : Instr) : Prop :=
  ∀ m : ChipTable, i.wellFormed = true →
    match i.opClass with
    | .client => ∃ op rest, encode m i = op :: rest ∧ rest.length = clientOperandCount op
    | .setup => (encode m i).length = 8
    | .serial => ∃ cmd rest, encode m i = cmd :: rest ∧ cmd ∈ m.commands ∧
        (m = Machine.mcp2515 → serialOperandCount cmd ≤ rest.length)

theorem mem_commands (m : ChipTable) :
    m.cmdReset ∈ m.commands ∧ m.cmdRead ∈ m.commands ∧ m.cmdWrite ∈ m.commands ∧ m.cmdBitModify ∈ m.commands ∧
      m.cmdReadStatus ∈ m.commands ∧ (∀ x : Fin 3, m.cmdLoadTx[x] ∈ m.commands) ∧
      ∀ b : Fin 2, m.cmdReadRx[b] ∈ m.commands := by
  simp [ChipTable.commands]

theorem EncodedLength.usbPoll : EncodedLength.Statement .usbPoll := fun _ _ => ⟨_, _, rfl, rfl⟩
theorem EncodedLength.usbReady : EncodedLength.Statement .usbReady := fun _ _ => ⟨_, _, rfl, rfl⟩
theorem EncodedLength.usbPut (b : Byte) : EncodedLength.Statement (.usbPut b) := fun _ _ => ⟨_, _, rfl, rfl⟩
theorem EncodedLength.usbFlush : EncodedLength.Statement .usbFlush := fun _ _ => ⟨_, _, rfl, rfl⟩
theorem EncodedLength.usbHasData : EncodedLength.Statement .usbHasData := fun _ _ => ⟨_, _, rfl, rfl⟩
theorem EncodedLength.usbGet : EncodedLength.Statement .usbGet := fun _ _ => ⟨_, _, rfl, rfl⟩
theorem EncodedLength.canReset : EncodedLength.Statement .canReset := fun _ _ => ⟨_, _, rfl, rfl⟩
theorem EncodedLength.canReadReg (a : Byte) : EncodedLength.Statement (.canReadReg a) := fun _ _ => ⟨_, _, rfl, rfl⟩
theorem EncodedLength.canWriteReg (a d : Byte) :
    EncodedLength.Statement (.canWriteReg a d) := fun _ _ => ⟨_, _, rfl, rfl⟩
theorem EncodedLength.canBitModify (a m d : Byte) :
    EncodedLength.Statement (.canBitModify a m d) := fun _ _ => ⟨_, _, rfl, rfl⟩
theorem EncodedLength.canReadStatus : EncodedLength.Statement .canReadStatus := fun _ _ => ⟨_, _, rfl, rfl⟩
theorem EncodedLength.canInit : EncodedLength.Statement .canInit := fun _ _ => ⟨_, _, rfl, rfl⟩
theorem EncodedLength.canSetTiming (cnf1 cnf2 cnf3 : Byte) :
    EncodedLength.Statement (.canSetTiming cnf1 cnf2 cnf3) := fun _ _ => ⟨_, _, rfl, rfl⟩
theorem EncodedLength.canSetPreset (k : Byte) : EncodedLength.Statement (.canSetPreset k) := fun _ _ => ⟨_, _, rfl, rfl⟩
theorem EncodedLength.canSetMask (m0 m1 m2 m3 : Byte) :
    EncodedLength.Statement (.canSetMask m0 m1 m2 m3) := fun _ _ => ⟨_, _, rfl, rfl⟩
theorem EncodedLength.canSetCode (c0 c1 c2 c3 : Byte) :
    EncodedLength.Statement (.canSetCode c0 c1 c2 c3) := fun _ _ => ⟨_, _, rfl, rfl⟩
theorem EncodedLength.canReadErrflags : EncodedLength.Statement .canReadErrflags := fun _ _ => ⟨_, _, rfl, rfl⟩
theorem EncodedLength.canSend (flags : Byte) (id : BitVec 32) (dlc : Byte) (data : Vector Byte 8) :
    EncodedLength.Statement (.canSend flags id dlc data) := fun _ _ => ⟨_, _, rfl, rfl⟩
theorem EncodedLength.canReceive : EncodedLength.Statement .canReceive := fun _ _ => ⟨_, _, rfl, rfl⟩
theorem EncodedLength.getStatus (dir : BitVec 1) (recip : BitVec 5) (wValue wIndex wLength : Half) :
    EncodedLength.Statement (.getStatus dir recip wValue wIndex wLength) := fun _ _ => rfl
theorem EncodedLength.clearFeature (dir : BitVec 1) (recip : BitVec 5) (wValue wIndex wLength : Half) :
    EncodedLength.Statement (.clearFeature dir recip wValue wIndex wLength) := fun _ _ => rfl
theorem EncodedLength.setFeature (dir : BitVec 1) (recip : BitVec 5) (wValue wIndex wLength : Half) :
    EncodedLength.Statement (.setFeature dir recip wValue wIndex wLength) := fun _ _ => rfl
theorem EncodedLength.setAddress (dir : BitVec 1) (recip : BitVec 5) (wValue wIndex wLength : Half) :
    EncodedLength.Statement (.setAddress dir recip wValue wIndex wLength) := fun _ _ => rfl
theorem EncodedLength.getDescriptorDevice (dir : BitVec 1) (recip : BitVec 5) (index : Byte) (wIndex wLength : Half) :
    EncodedLength.Statement (.getDescriptorDevice dir recip index wIndex wLength) := fun _ _ => rfl
theorem EncodedLength.getDescriptorConfiguration (dir : BitVec 1) (recip : BitVec 5) (index : Byte)
    (wIndex wLength : Half) :
    EncodedLength.Statement (.getDescriptorConfiguration dir recip index wIndex wLength) := fun _ _ => rfl
theorem EncodedLength.getDescriptorString (dir : BitVec 1) (recip : BitVec 5) (index : Byte) (wIndex wLength : Half) :
    EncodedLength.Statement (.getDescriptorString dir recip index wIndex wLength) := fun _ _ => rfl
theorem EncodedLength.getDescriptorOther (dir : BitVec 1) (recip : BitVec 5) (dtype index : Byte)
    (wIndex wLength : Half) :
    EncodedLength.Statement (.getDescriptorOther dir recip dtype index wIndex wLength) := fun _ _ => rfl
theorem EncodedLength.getConfiguration (dir : BitVec 1) (recip : BitVec 5) (wValue wIndex wLength : Half) :
    EncodedLength.Statement (.getConfiguration dir recip wValue wIndex wLength) := fun _ _ => rfl
theorem EncodedLength.setConfiguration (dir : BitVec 1) (recip : BitVec 5) (wValue wIndex wLength : Half) :
    EncodedLength.Statement (.setConfiguration dir recip wValue wIndex wLength) := fun _ _ => rfl
theorem EncodedLength.getInterface (dir : BitVec 1) (recip : BitVec 5) (wValue wIndex wLength : Half) :
    EncodedLength.Statement (.getInterface dir recip wValue wIndex wLength) := fun _ _ => rfl
theorem EncodedLength.setInterface (dir : BitVec 1) (recip : BitVec 5) (wValue wIndex wLength : Half) :
    EncodedLength.Statement (.setInterface dir recip wValue wIndex wLength) := fun _ _ => rfl
theorem EncodedLength.synchFrame (dir : BitVec 1) (recip : BitVec 5) (wValue wIndex wLength : Half) :
    EncodedLength.Statement (.synchFrame dir recip wValue wIndex wLength) := fun _ _ => rfl
theorem EncodedLength.sendEncapsulatedCommand (dir : BitVec 1) (recip : BitVec 5) (wValue wIndex wLength : Half) :
    EncodedLength.Statement (.sendEncapsulatedCommand dir recip wValue wIndex wLength) := fun _ _ => rfl
theorem EncodedLength.getEncapsulatedResponse (dir : BitVec 1) (recip : BitVec 5) (wValue wIndex wLength : Half) :
    EncodedLength.Statement (.getEncapsulatedResponse dir recip wValue wIndex wLength) := fun _ _ => rfl
theorem EncodedLength.setLineCoding (dir : BitVec 1) (recip : BitVec 5) (wValue wIndex wLength : Half) :
    EncodedLength.Statement (.setLineCoding dir recip wValue wIndex wLength) := fun _ _ => rfl
theorem EncodedLength.getLineCoding (dir : BitVec 1) (recip : BitVec 5) (wValue wIndex wLength : Half) :
    EncodedLength.Statement (.getLineCoding dir recip wValue wIndex wLength) := fun _ _ => rfl
theorem EncodedLength.setControlLineState (dir : BitVec 1) (recip : BitVec 5) (wValue wIndex wLength : Half) :
    EncodedLength.Statement (.setControlLineState dir recip wValue wIndex wLength) := fun _ _ => rfl
theorem EncodedLength.spiReset : EncodedLength.Statement .spiReset := fun m _ =>
  ⟨_, _, rfl, (mem_commands m).1, fun h => by subst h; decide⟩
theorem EncodedLength.spiRead (a : Byte) : EncodedLength.Statement (.spiRead a) := fun m _ =>
  ⟨_, _, rfl, (mem_commands m).2.1, fun h => by subst h; exact Nat.le_refl _⟩
theorem EncodedLength.spiWrite (a : Byte) (ds : List Byte) : EncodedLength.Statement (.spiWrite a ds) := fun m h =>
  ⟨_, _, rfl, (mem_commands m).2.2.1, fun e => by
    subst e
    have h1 : 1 ≤ ds.length := by simpa [Instr.wellFormed, writeLengthOk, Nat.succ_le_iff] using h
    show 2 ≤ ds.length + 1
    omega⟩
theorem EncodedLength.spiBitModify (a m d : Byte) : EncodedLength.Statement (.spiBitModify a m d) := fun m _ =>
  ⟨_, _, rfl, (mem_commands m).2.2.2.1, fun h => by subst h; exact Nat.le_refl _⟩
theorem EncodedLength.spiReadStatus : EncodedLength.Statement .spiReadStatus := fun m _ =>
  ⟨_, _, rfl, (mem_commands m).2.2.2.2.1, fun h => by subst h; exact Nat.le_refl _⟩
theorem EncodedLength.spiLoadTx (slot : Fin 3) (ds : List Byte) :
    EncodedLength.Statement (.spiLoadTx slot ds) := fun m h =>
  ⟨_, _, rfl, (mem_commands m).2.2.2.2.2.1 slot, fun e => by
    subst e
    have h5 : 5 ≤ ds.length := by
      simp only [Instr.wellFormed, loadTxLengthOk, Bool.and_eq_true, decide_eq_true_eq] at h
      exact h.1
    match slot with
    | 0 => exact h5
    | 1 => exact h5
    | 2 => exact h5⟩
theorem EncodedLength.spiReadRx (buffer : Fin 2) : EncodedLength.Statement (.spiReadRx buffer) := fun m _ =>
  ⟨_, _, rfl, (mem_commands m).2.2.2.2.2.2 buffer, fun e => by
    subst e
    match buffer with
    | 0 => exact Nat.le_refl _
    | 1 => exact Nat.le_refl _⟩

end Sys2Proof.Laws
end

