-- ==== Sys2Proof/Laws/Sie.lean ====
section
/-! SUPPORT. What the SIE can do on a token, case by case, and what the storing of a SETUP packet and the settling after an
input leave. -/

namespace Sys2Proof.Machine

/-! ### Giving up -/

/-- A descriptor after the SIE has given it up, and every other one. -/
theorem giveUp_bd (b c : Buf) (s : State) :
    (giveUp b s).bd c = if c = b then (s.bd c).givenUp c.isOut else s.bd c := by
  rw [giveUp, State.bd_setBd]
  by_cases h : c = b
  · rw [if_pos h, if_pos h, h]
  · rw [if_neg h, if_neg h]

@[simp] theorem Bd.givenUp_own (d : Bd) (o : Bool) : (d.givenUp o).own = .sw := by
  unfold Bd.givenUp
  split
  · rfl
  · next h => exact Owner.ne_sie.mp h

theorem Bd.givenUp_of_sw {d : Bd} (h : d.own = .sw) (o : Bool) : d.givenUp o = d := by
  unfold Bd.givenUp
  rw [if_neg (by simp [h])]

theorem Bd.givenUp_count_le (d : Bd) (o : Bool) : (d.givenUp o).count ≤ d.count := by
  unfold Bd.givenUp
  split
  · split <;> simp
  · exact Nat.le_refl _

@[simp] theorem giveUp_ep0setup (b : Buf) (s : State) : (giveUp b s).bds.ep0setup = s.bds.ep0setup :=
  Bds.set_ep0setup _ _ _

/-- What the block owns, the SIE cannot give up. -/
theorem giveUp_of_sw {b : Buf} {s : State} (h : (s.bd b).own = .sw) : giveUp b s = s := by
  rw [giveUp, Bd.givenUp_of_sw h, State.setBd, State.bd_eq, Bds.set_get]

/-- Every descriptor after the SIE has given up all of them. -/
theorem giveUpAll_bd (c : Buf) (s : State) : (giveUpAll s).bd c = (s.bd c).givenUp c.isOut := by
  unfold giveUpAll
  rcases c with _ | _ | k | k
  · simp [giveUp_bd]
  · simp [giveUp_bd]
  · match k with
    | 0 => simp [giveUp_bd]
    | 1 => simp [giveUp_bd]
  · match k with
    | 0 => simp [giveUp_bd]
    | 1 => simp [giveUp_bd]

@[simp] theorem giveUpAll_ep0setup (s : State) : (giveUpAll s).bds.ep0setup = s.bds.ep0setup := by
  simp [giveUpAll, State.setBd, giveUp]

theorem giveUpAll_of_sw {s : State} (h : ∀ b, (s.bd b).own = .sw) : giveUpAll s = s := by
  simp [giveUpAll, giveUp_of_sw (h _)]

/-! ### The storing of a SETUP packet, its return, and the taking back -/

@[simp] theorem sieSetup_cfg (p : Vector Byte 8) (s : State) : (sieSetup p s).cfg = s.cfg := rfl
@[simp] theorem sieSetup_dev (p : Vector Byte 8) (s : State) : (sieSetup p s).dev = s.dev := rfl
@[simp] theorem sieSetup_ctl (p : Vector Byte 8) (s : State) : (sieSetup p s).ctl = s.ctl := rfl
@[simp] theorem sieSetup_bin (p : Vector Byte 8) (s : State) : (sieSetup p s).bin = s.bin := rfl
@[simp] theorem sieSetup_bout (p : Vector Byte 8) (s : State) : (sieSetup p s).bout = s.bout := rfl
@[simp] theorem sieSetup_can (p : Vector Byte 8) (s : State) : (sieSetup p s).can = s.can := rfl
@[simp] theorem sieSetup_serial (p : Vector Byte 8) (s : State) : (sieSetup p s).serial = s.serial := rfl
@[simp] theorem sieSetup_chip (p : Vector Byte 8) (s : State) : (sieSetup p s).chip = s.chip := rfl
@[simp] theorem sieSetup_pins (p : Vector Byte 8) (s : State) : (sieSetup p s).pins = s.pins := rfl
@[simp] theorem sieSetup_clock (p : Vector Byte 8) (s : State) : (sieSetup p s).clock = s.clock := rfl
@[simp] theorem sieSetup_inputs (p : Vector Byte 8) (s : State) : (sieSetup p s).inputs = s.inputs := rfl
@[simp] theorem sieSetup_bench (p : Vector Byte 8) (s : State) : (sieSetup p s).bench = s.bench := rfl
@[simp] theorem sieSetup_during (p : Vector Byte 8) (s : State) : (sieSetup p s).during = s.during := rfl
@[simp] theorem sieSetup_response (p : Vector Byte 8) (s : State) : (sieSetup p s).response = s.response := rfl
@[simp] theorem sieSetup_txns (p : Vector Byte 8) (s : State) : (sieSetup p s).txns = s.txns := rfl
@[simp] theorem sieSetup_pulses (p : Vector Byte 8) (s : State) : (sieSetup p s).pulses = s.pulses := rfl
@[simp] theorem sieSetup_answer (p : Vector Byte 8) (s : State) : (sieSetup p s).answer = some .ack := rfl
@[simp] theorem sieSetup_draws (p : Vector Byte 8) (s : State) : (sieSetup p s).draws = s.draws := rfl
@[simp] theorem sieSetup_mem (p : Vector Byte 8) (s : State) :
    (sieSetup p s).mem = s.mem.writeList Buf.ep0out.base p.toList := rfl
@[simp] theorem sieSetup_queue (p : Vector Byte 8) (s : State) :
    (sieSetup p s).sie.queue = s.sie.queue ++ [.doneEp0out] := rfl
@[simp] theorem sieSetup_nextIn (p : Vector Byte 8) (s : State) : (sieSetup p s).sie.nextIn = s.sie.nextIn := rfl
@[simp] theorem sieSetup_nextOut (p : Vector Byte 8) (s : State) : (sieSetup p s).sie.nextOut = s.sie.nextOut := rfl
@[simp] theorem sieSetup_ep0setup (p : Vector Byte 8) (s : State) : (sieSetup p s).bds.ep0setup = true := rfl

@[simp] theorem sieSetup_ep0out (p : Vector Byte 8) (s : State) : (sieSetup p s).bd .ep0out = ⟨.sw, 8⟩ := by
  show (⟨.sw, p.toList.length⟩ : Bd) = _
  simp

@[simp] theorem sieSetup_ep0in (p : Vector Byte 8) (s : State) :
    (sieSetup p s).bd .ep0in = (s.bd .ep0in).givenUp false := rfl

@[simp] theorem sieSetup_bdBin (p : Vector Byte 8) (s : State) (k : Fin 2) :
    (sieSetup p s).bd (.bin k) = s.bd (.bin k) := by
  match k with
  | 0 => rfl
  | 1 => rfl

@[simp] theorem sieSetup_bdBout (p : Vector Byte 8) (s : State) (k : Fin 2) :
    (sieSetup p s).bd (.bout k) = s.bd (.bout k) := by
  match k with
  | 0 => rfl
  | 1 => rfl

/-- What redelivery can do: nothing, or the return of the endpoint-0 OUT buffer with a SETUP packet. -/
theorem redeliver_cases (s : State) :
    (¬ (.doneEp0out ∈ s.sie.queue ∧ (s.bd .ep0out).own = .sie) ∧ redeliver s = s) ∨
    (.doneEp0out ∈ s.sie.queue ∧ (s.bd .ep0out).own = .sie ∧
      redeliver s = { s with bds := { s.bds with ep0out := ⟨.sw, 8⟩, ep0setup := true } }) := by
  unfold redeliver
  split
  · next h =>
    have h : .doneEp0out ∈ s.sie.queue ∧ (s.bd .ep0out).own = .sie := by simpa using h
    exact .inr ⟨h.1, h.2, rfl⟩
  · next h => exact .inl ⟨by simpa using h, rfl⟩

@[simp] theorem redeliver_cfg (s : State) : (redeliver s).cfg = s.cfg := by unfold redeliver; split <;> rfl
@[simp] theorem redeliver_dev (s : State) : (redeliver s).dev = s.dev := by unfold redeliver; split <;> rfl
@[simp] theorem redeliver_ctl (s : State) : (redeliver s).ctl = s.ctl := by unfold redeliver; split <;> rfl
@[simp] theorem redeliver_bin (s : State) : (redeliver s).bin = s.bin := by unfold redeliver; split <;> rfl
@[simp] theorem redeliver_bout (s : State) : (redeliver s).bout = s.bout := by unfold redeliver; split <;> rfl
@[simp] theorem redeliver_can (s : State) : (redeliver s).can = s.can := by unfold redeliver; split <;> rfl
@[simp] theorem redeliver_serial (s : State) : (redeliver s).serial = s.serial := by unfold redeliver; split <;> rfl
@[simp] theorem redeliver_chip (s : State) : (redeliver s).chip = s.chip := by unfold redeliver; split <;> rfl
@[simp] theorem redeliver_pins (s : State) : (redeliver s).pins = s.pins := by unfold redeliver; split <;> rfl
@[simp] theorem redeliver_clock (s : State) : (redeliver s).clock = s.clock := by unfold redeliver; split <;> rfl
@[simp] theorem redeliver_inputs (s : State) : (redeliver s).inputs = s.inputs := by unfold redeliver; split <;> rfl
@[simp] theorem redeliver_bench (s : State) : (redeliver s).bench = s.bench := by unfold redeliver; split <;> rfl
@[simp] theorem redeliver_during (s : State) : (redeliver s).during = s.during := by unfold redeliver; split <;> rfl
@[simp] theorem redeliver_response (s : State) : (redeliver s).response = s.response := by unfold redeliver; split <;> rfl
@[simp] theorem redeliver_txns (s : State) : (redeliver s).txns = s.txns := by unfold redeliver; split <;> rfl
@[simp] theorem redeliver_pulses (s : State) : (redeliver s).pulses = s.pulses := by unfold redeliver; split <;> rfl
@[simp] theorem redeliver_answer (s : State) : (redeliver s).answer = s.answer := by unfold redeliver; split <;> rfl
@[simp] theorem redeliver_draws (s : State) : (redeliver s).draws = s.draws := by unfold redeliver; split <;> rfl
@[simp] theorem redeliver_mem (s : State) : (redeliver s).mem = s.mem := by unfold redeliver; split <;> rfl
@[simp] theorem redeliver_sie (s : State) : (redeliver s).sie = s.sie := by unfold redeliver; split <;> rfl

@[simp] theorem redeliver_ep0in (s : State) : (redeliver s).bd .ep0in = s.bd .ep0in := by
  unfold redeliver; split <;> rfl

@[simp] theorem redeliver_bdBin (s : State) (k : Fin 2) : (redeliver s).bd (.bin k) = s.bd (.bin k) := by
  unfold redeliver
  split
  · match k with
    | 0 => rfl
    | 1 => rfl
  · rfl

@[simp] theorem redeliver_bdBout (s : State) (k : Fin 2) : (redeliver s).bd (.bout k) = s.bd (.bout k) := by
  unfold redeliver
  split
  · match k with
    | 0 => rfl
    | 1 => rfl
  · rfl

@[simp] theorem sieTakeBack_cfg (s : State) : (sieTakeBack s).cfg = s.cfg := by
  simp only [sieTakeBack]
  split <;> split <;> rfl

@[simp] theorem sieTakeBack_dev (s : State) : (sieTakeBack s).dev = s.dev := by
  simp only [sieTakeBack]
  split <;> split <;> rfl

@[simp] theorem sieTakeBack_ctl (s : State) : (sieTakeBack s).ctl = s.ctl := by
  simp only [sieTakeBack]
  split <;> split <;> rfl

@[simp] theorem sieTakeBack_bin (s : State) : (sieTakeBack s).bin = s.bin := by
  simp only [sieTakeBack]
  split <;> split <;> rfl

@[simp] theorem sieTakeBack_bout (s : State) : (sieTakeBack s).bout = s.bout := by
  simp only [sieTakeBack]
  split <;> split <;> rfl

@[simp] theorem sieTakeBack_can (s : State) : (sieTakeBack s).can = s.can := by
  simp only [sieTakeBack]
  split <;> split <;> rfl

@[simp] theorem sieTakeBack_serial (s : State) : (sieTakeBack s).serial = s.serial := by
  simp only [sieTakeBack]
  split <;> split <;> rfl

@[simp] theorem sieTakeBack_chip (s : State) : (sieTakeBack s).chip = s.chip := by
  simp only [sieTakeBack]
  split <;> split <;> rfl

@[simp] theorem sieTakeBack_pins (s : State) : (sieTakeBack s).pins = s.pins := by
  simp only [sieTakeBack]
  split <;> split <;> rfl

@[simp] theorem sieTakeBack_clock (s : State) : (sieTakeBack s).clock = s.clock := by
  simp only [sieTakeBack]
  split <;> split <;> rfl

@[simp] theorem sieTakeBack_inputs (s : State) : (sieTakeBack s).inputs = s.inputs := by
  simp only [sieTakeBack]
  split <;> split <;> rfl

@[simp] theorem sieTakeBack_bench (s : State) : (sieTakeBack s).bench = s.bench := by
  simp only [sieTakeBack]
  split <;> split <;> rfl

@[simp] theorem sieTakeBack_during (s : State) : (sieTakeBack s).during = s.during := by
  simp only [sieTakeBack]
  split <;> split <;> rfl

@[simp] theorem sieTakeBack_response (s : State) : (sieTakeBack s).response = s.response := by
  simp only [sieTakeBack]
  split <;> split <;> rfl

@[simp] theorem sieTakeBack_txns (s : State) : (sieTakeBack s).txns = s.txns := by
  simp only [sieTakeBack]
  split <;> split <;> rfl

@[simp] theorem sieTakeBack_pulses (s : State) : (sieTakeBack s).pulses = s.pulses := by
  simp only [sieTakeBack]
  split <;> split <;> rfl

@[simp] theorem sieTakeBack_answer (s : State) : (sieTakeBack s).answer = s.answer := by
  simp only [sieTakeBack]
  split <;> split <;> rfl

@[simp] theorem sieTakeBack_draws (s : State) : (sieTakeBack s).draws = s.draws := by
  simp only [sieTakeBack]
  split <;> split <;> rfl

@[simp] theorem sieTakeBack_mem (s : State) : (sieTakeBack s).mem = s.mem := by
  simp only [sieTakeBack]
  split <;> split <;> rfl

@[simp] theorem sieTakeBack_sie (s : State) : (sieTakeBack s).sie = s.sie := by
  simp only [sieTakeBack]
  split <;> split <;> rfl

@[simp] theorem sieSettle_cfg (s : State) : (sieSettle s).cfg = s.cfg := by
  rw [sieSettle, sieTakeBack_cfg, redeliver_cfg]

@[simp] theorem sieSettle_dev (s : State) : (sieSettle s).dev = s.dev := by
  rw [sieSettle, sieTakeBack_dev, redeliver_dev]

@[simp] theorem sieSettle_ctl (s : State) : (sieSettle s).ctl = s.ctl := by
  rw [sieSettle, sieTakeBack_ctl, redeliver_ctl]

@[simp] theorem sieSettle_bin (s : State) : (sieSettle s).bin = s.bin := by
  rw [sieSettle, sieTakeBack_bin, redeliver_bin]

@[simp] theorem sieSettle_bout (s : State) : (sieSettle s).bout = s.bout := by
  rw [sieSettle, sieTakeBack_bout, redeliver_bout]

@[simp] theorem sieSettle_can (s : State) : (sieSettle s).can = s.can := by
  rw [sieSettle, sieTakeBack_can, redeliver_can]

@[simp] theorem sieSettle_serial (s : State) : (sieSettle s).serial = s.serial := by
  rw [sieSettle, sieTakeBack_serial, redeliver_serial]

@[simp] theorem sieSettle_chip (s : State) : (sieSettle s).chip = s.chip := by
  rw [sieSettle, sieTakeBack_chip, redeliver_chip]

@[simp] theorem sieSettle_pins (s : State) : (sieSettle s).pins = s.pins := by
  rw [sieSettle, sieTakeBack_pins, redeliver_pins]

@[simp] theorem sieSettle_clock (s : State) : (sieSettle s).clock = s.clock := by
  rw [sieSettle, sieTakeBack_clock, redeliver_clock]

@[simp] theorem sieSettle_inputs (s : State) : (sieSettle s).inputs = s.inputs := by
  rw [sieSettle, sieTakeBack_inputs, redeliver_inputs]

@[simp] theorem sieSettle_bench (s : State) : (sieSettle s).bench = s.bench := by
  rw [sieSettle, sieTakeBack_bench, redeliver_bench]

@[simp] theorem sieSettle_during (s : State) : (sieSettle s).during = s.during := by
  rw [sieSettle, sieTakeBack_during, redeliver_during]

@[simp] theorem sieSettle_response (s : State) : (sieSettle s).response = s.response := by
  rw [sieSettle, sieTakeBack_response, redeliver_response]

@[simp] theorem sieSettle_txns (s : State) : (sieSettle s).txns = s.txns := by
  rw [sieSettle, sieTakeBack_txns, redeliver_txns]

@[simp] theorem sieSettle_pulses (s : State) : (sieSettle s).pulses = s.pulses := by
  rw [sieSettle, sieTakeBack_pulses, redeliver_pulses]

@[simp] theorem sieSettle_answer (s : State) : (sieSettle s).answer = s.answer := by
  rw [sieSettle, sieTakeBack_answer, redeliver_answer]

@[simp] theorem sieSettle_draws (s : State) : (sieSettle s).draws = s.draws := by
  rw [sieSettle, sieTakeBack_draws, redeliver_draws]

@[simp] theorem sieSettle_mem (s : State) : (sieSettle s).mem = s.mem := by
  rw [sieSettle, sieTakeBack_mem, redeliver_mem]

@[simp] theorem sieSettle_sie (s : State) : (sieSettle s).sie = s.sie := by
  rw [sieSettle, sieTakeBack_sie, redeliver_sie]

/-- A property that the SIE keeps when it returns a SETUP packet and when it gives up a buffer is kept by all that it does
after an input. -/
theorem sieSettle_induction {P : State → Prop} {s : State} (h : P s)
    (hre : P s → P (redeliver s)) (hup : ∀ b s, P s → P (giveUp b s)) : P (sieSettle s) := by
  have h1 : P (if (redeliver s).resetWaits then giveUpAll (redeliver s) else redeliver s) := by
    split
    · exact hup _ _ (hup _ _ (hup _ _ (hup _ _ (hup _ _ (hup _ _ (hre h))))))
    · exact hre h
  simp only [sieSettle, sieTakeBack]
  generalize (if (redeliver s).resetWaits then giveUpAll (redeliver s) else redeliver s) = u at h1
  split
  · exact hup _ _ h1
  · exact h1

/-- With no event of endpoint 0's OUT buffer, no bus reset and no SETUP waiting, the SIE does nothing after an input. -/
theorem sieSettle_of_quiet {s : State} (ho : .doneEp0out ∉ s.sie.queue) (hr : s.resetWaits = false)
    (hs : s.setupWaits = false) : sieSettle s = s := by
  have h : redeliver s = s := by simp [redeliver, ho]
  rw [sieSettle, h]
  simp [sieTakeBack, hr, hs]

/-! ### The tokens of endpoint 0 -/

/-- An IN token on endpoint 0 is answered without any transaction, or takes the armed packet. -/
theorem sieIn0_cases (s : State) :
    (∃ a, (a = .nak ∨ a = .stall) ∧ sieIn0 s = s.answered a) ∨
    (s.setupWaits = false ∧ s.stallsEp0 = false ∧ (s.bd .ep0in).own = .sie ∧
      sieIn0 s = (post .doneEp0in ((giveBack .ep0in s).setToggles
        { s.sie.toggles with ep0in := !s.sie.toggles.ep0in })).answered
          (.data s.sie.toggles.ep0in (s.armedBytes .ep0in))) := by
  unfold sieIn0
  split
  · exact .inl ⟨_, .inl rfl, rfl⟩
  · next hw =>
    split
    · exact .inl ⟨_, .inr rfl, rfl⟩
    · next hs =>
      split
      · next ho => exact .inr ⟨by simpa using hw, by simpa using hs, ho, rfl⟩
      · exact .inl ⟨_, .inl rfl, rfl⟩

/-- An OUT token on endpoint 0 is answered without any transaction, or its data go into the armed buffer. -/
theorem sieOut0_cases (data : List Byte) (s : State) :
    (∃ a, a ≠ .ack ∧ sieOut0 data s = s.answered a) ∨
    (s.setupWaits = false ∧ s.stallsEp0 = false ∧ (s.bd .ep0out).own = .sie ∧ data.length ≤ s.cfg.ep0Size.bytes ∧
      sieOut0 data s = (post .doneEp0out ((deliver .ep0out data s).setToggles
        { s.sie.toggles with ep0out := !s.sie.toggles.ep0out })).answered .ack) := by
  unfold sieOut0
  split
  · exact .inl ⟨_, by simp, rfl⟩
  · next hw =>
    split
    · exact .inl ⟨_, by simp, rfl⟩
    · next hs =>
      split
      · next ho =>
        split
        · next hl => exact .inr ⟨by simpa using hw, by simpa using hs, ho, hl, rfl⟩
        · exact .inl ⟨_, by simp, rfl⟩
      · exact .inl ⟨_, by simp, rfl⟩

/-! ### The tokens of the bulk endpoints -/

/-- The state after the SIE has sent the next bulk-IN buffer. -/
def bulkInSent (s : State) : State :=
  { (giveBack (.bin s.sie.nextIn) s) with
    sie := {
      queue := s.sie.queue ++ [.doneBin s.sie.nextIn]
      toggles := { s.sie.toggles with in_ := !s.sie.toggles.in_ }
      nextIn := 1 - s.sie.nextIn
      nextOut := s.sie.nextOut }
    answer := some (.data s.sie.toggles.in_ (s.armedBytes (.bin s.sie.nextIn))) }

/-- An IN token on the bulk-IN endpoint is answered without any transaction, or takes the SIE's next buffer. -/
theorem sieBulkIn_cases (s : State) :
    ((s.dev.halt.in_ = true ∨ (s.bd (.bin s.sie.nextIn)).own = .sw) ∧
      ∃ a, (a = .nak ∨ a = .stall) ∧ sieBulkIn s = s.answered a) ∨
    (s.dev.halt.in_ = false ∧ (s.bd (.bin s.sie.nextIn)).own = .sie ∧ sieBulkIn s = bulkInSent s) := by
  unfold sieBulkIn
  simp only
  split
  · next h => exact .inl ⟨.inl h, _, .inr rfl, rfl⟩
  · next h =>
    split
    · next ho =>
      refine .inr ⟨by simpa [State.stallOut, Halt.get] using h, ho, ?_⟩
      simp [bulkInSent, post, State.setToggles, State.answered, giveBack, State.setBd]
    · next ho => exact .inl ⟨.inr (Owner.ne_sie.mp ho), _, .inl rfl, rfl⟩

/-- The state after the SIE has received data into the next bulk-OUT buffer. -/
def bulkOutReceived (data : List Byte) (s : State) : State :=
  { (deliver (.bout s.sie.nextOut) data s) with
    sie := {
      queue := s.sie.queue ++ [.doneBout s.sie.nextOut]
      toggles := { s.sie.toggles with out := !s.sie.toggles.out }
      nextIn := s.sie.nextIn
      nextOut := 1 - s.sie.nextOut }
    answer := some .ack }

/-- An OUT token on the bulk-OUT endpoint is answered without any transaction, or its data go into the SIE's next
buffer. -/
theorem sieBulkOut_cases (data : List Byte) (s : State) :
    (∃ a, a ≠ .ack ∧ sieBulkOut data s = s.answered a) ∨
    (s.dev.halt.out = false ∧ (s.bd (.bout s.sie.nextOut)).own = .sie ∧ data.length ≤ s.cfg.bulkSize.val ∧
      sieBulkOut data s = bulkOutReceived data s) := by
  unfold sieBulkOut
  simp only
  split
  · exact .inl ⟨_, by simp, rfl⟩
  · next h =>
    split
    · next ho =>
      split
      · next hl =>
        refine .inr ⟨by simpa [State.stallOut, Halt.get] using h, ho, hl, ?_⟩
        simp [bulkOutReceived, post, State.setToggles, State.answered, deliver, State.setBd]
      · exact .inl ⟨_, by simp, rfl⟩
    · exact .inl ⟨_, by simp, rfl⟩

end Sys2Proof.Machine
end

