-- ==== Sys2Proof/Laws/Step.lean ====
section
/-! SUPPORT. What a step can be: the input it takes, and who performs it. -/

namespace Sys2Proof.Machine

/-- With nothing on the bench and no input a step does nothing; any other performs what is next, and then the SIE does
what it can. -/
theorem step_eq_next {s t : State} (e : step s = .next t) :
    (s.bench = none ∧ s.inputs = [] ∧ t = s) ∨
    (∃ bytes u, s.bench = some bytes ∧ stepBench bytes { s.accept s.inputs with bench := none } = .next u ∧
      t = sieSettle u) ∨
    ∃ i rest u, s.bench = none ∧ s.inputs = i :: rest ∧ stepInput i (s.accept rest) = .next u ∧ t = sieSettle u := by
  unfold step nextInput at e
  split at e
  · next bytes h =>
    obtain ⟨u, hu, ht⟩ := andThen_eq_next.mp e
    cases ht
    exact .inr (.inl ⟨bytes, u, h, hu, rfl⟩)
  · next hb h => cases e; exact .inl ⟨hb, h, rfl⟩
  · next i rest hb h =>
    obtain ⟨u, hu, ht⟩ := andThen_eq_next.mp e
    cases ht
    exact .inr (.inr ⟨i, rest, u, hb, h, hu, rfl⟩)

/-- What is on the bench is performed by the meaning that it decodes to. -/
theorem stepBench_eq_next {bytes : List Byte} {s t : State} (e : stepBench bytes s = .next t) :
    ∃ j, decodeSerial s.cfg.chip bytes = .ok j ∧ exec j s = .next t := by
  unfold stepBench at e
  split at e
  · next j h => exact ⟨j, h, e⟩
  · cases e

/-- What performs an input: a meaning, the answer ILLEGAL, the SIE, the world outside, or the clock. -/
theorem stepInput_eq_next {i : Input} {s t : State} (e : stepInput i s = .next t) :
    (∃ bytes j, i = .request bytes ∧ decodeClient bytes = .ok j ∧ exec j s = .next t) ∨
    (∃ bytes op, i = .request bytes ∧ decodeClient bytes = .error (.illegalOp op) ∧ t = respond .illegal [] s) ∨
    (∃ k, i = .token k ∧ t = sieToken k s) ∨
    (∃ o, i = .outside o ∧ t = outsideAct o s) ∨
    (i = .tick ∧ t = tick s) := by
  cases i with
  | request bytes =>
    change stepRequest bytes s = _ at e
    unfold stepRequest at e
    split at e
    · next j h => exact .inl ⟨bytes, j, rfl, h, e⟩
    · next op h => cases e; exact .inr (.inl ⟨bytes, op, rfl, h, rfl⟩)
    · cases e
  | token k => cases e; exact .inr (.inr (.inl ⟨k, rfl, rfl⟩))
  | outside o => cases e; exact .inr (.inr (.inr (.inl ⟨o, rfl, rfl⟩)))
  | tick => cases e; exact .inr (.inr (.inr (.inr ⟨rfl, rfl⟩)))

/-- The request rules are what `exec` runs of a SETUP packet's operation. -/
theorem dispatchSetup_eq_exec {i : Instr} (h : i.opClass = .setup) (s : State) : dispatchSetup (.ok i) s = exec i s := by
  cases i <;> first | rfl | simp [Instr.opClass] at h

end Sys2Proof.Machine
end

