-- ==== Sys2Proof/Tests/Slice0.lean ====
section
/-! SUPPORT. Tests: ill-formed terms that WellFormed refuses, words written out from the encoding tables, one or two
steps per operation with results taken from the spec's examples and vectors (95_test_vectors.md), and, for each
obligation with hypotheses, a state and operands that meet them. -/

set_option Elab.async false

namespace Sys2Proof.Tests

open Sys2Proof.Machine

/-! ### WellFormed refuses (30_encoding.md R154, R161) -/

theorem test_other_descriptor_is_not_device : (Instr.getDescriptorOther 1 0 1 0 0 0).wellFormed = false := by decide
theorem test_other_descriptor_is_not_configuration :
    (Instr.getDescriptorOther 1 0 2 0 0 0).wellFormed = false := by decide
theorem test_other_descriptor_is_not_string : (Instr.getDescriptorOther 1 0 3 0 0 0).wellFormed = false := by decide
theorem test_write_carries_a_byte : (Instr.spiWrite 0x0F []).wellFormed = false := by decide
theorem test_load_of_4_bytes_is_ill_formed :
    (Instr.spiLoadTx 0 [0x24, 0x60, 0x00, 0x00]).wellFormed = false := by decide
theorem test_load_of_14_bytes_is_ill_formed :
    (Instr.spiLoadTx 0 (List.replicate 14 0x00)).wellFormed = false := by decide

/-! ### Words of 30_encoding.md R142: the client operations -/

theorem test_decode_usb :
    decodeClient [0x01] = .ok .usbPoll ∧ decodeClient [0x02] = .ok .usbReady ∧
      decodeClient [0x03, 0x7E] = .ok (.usbPut 0x7E) ∧ decodeClient [0x04] = .ok .usbFlush ∧
      decodeClient [0x05] = .ok .usbHasData ∧ decodeClient [0x06] = .ok .usbGet := by decide
theorem test_decode_registers :
    decodeClient [0x10] = .ok .canReset ∧ decodeClient [0x11, 0x0E] = .ok (.canReadReg 0x0E) ∧
      decodeClient [0x12, 0x0F, 0x80] = .ok (.canWriteReg 0x0F 0x80) ∧
      decodeClient [0x13, 0x2C, 0x20, 0x01] = .ok (.canBitModify 0x2C 0x20 0x01) ∧
      decodeClient [0x14] = .ok .canReadStatus := by decide
theorem test_decode_configuration :
    decodeClient [0x20] = .ok .canInit ∧ decodeClient [0x21, 0x03, 0xB6, 0x04] = .ok (.canSetTiming 0x03 0xB6 0x04) ∧
      decodeClient [0x22, 0x08] = .ok (.canSetPreset 0x08) ∧
      decodeClient [0x23, 0x00, 0x1F, 0xFF, 0xFE] = .ok (.canSetMask 0x00 0x1F 0xFF 0xFE) ∧
      decodeClient [0x24, 0x24, 0x60, 0x01, 0x02] = .ok (.canSetCode 0x24 0x60 0x01 0x02) ∧
      decodeClient [0x25] = .ok .canReadErrflags := by decide
theorem test_decode_frames :
    decodeClient [0x30, 0x01, 0x12, 0x34, 0x56, 0x78, 0x03, 0x01, 0x02, 0x03, 0x04, 0x05, 0x06, 0x07, 0x08] =
        .ok (.canSend 0x01 0x12345678 0x03 #v[0x01, 0x02, 0x03, 0x04, 0x05, 0x06, 0x07, 0x08]) ∧
      decodeClient [0x31] = .ok .canReceive := by decide
/-- An op code outside the table is illegal, whatever follows; a wrong number of operand bytes is no request. -/
theorem test_decode_client_refuses :
    decodeClient [0x07] = .error (.illegalOp 0x07) ∧ decodeClient [0xFF, 0x01] = .error (.illegalOp 0xFF) ∧
      decodeClient [0x03] = .error (.badLength 0x03) ∧ decodeClient [] = .error .empty := by decide

/-! ### Words of 30_encoding.md R150 to R156: the SETUP packets -/

theorem test_decode_feature_requests :
    decodeSetup [0x82, 0x00, 0x00, 0x00, 0x81, 0x00, 0x02, 0x00] = .ok (.getStatus 1 2 0x0000 0x0081 0x0002) ∧
      decodeSetup [0x02, 0x01, 0x00, 0x00, 0x82, 0x00, 0x00, 0x00] = .ok (.clearFeature 0 2 0x0000 0x0082 0x0000) ∧
      decodeSetup [0x02, 0x03, 0x34, 0x12, 0x02, 0x01, 0x00, 0x00] =
        .ok (.setFeature 0 2 0x1234 0x0102 0x0000) := by decide
theorem test_decode_descriptor_requests :
    decodeSetup [0x80, 0x06, 0x00, 0x01, 0x00, 0x00, 0x12, 0x00] = .ok (.getDescriptorDevice 1 0 0 0 0x0012) ∧
      decodeSetup [0x80, 0x06, 0x00, 0x02, 0x00, 0x00, 0xFF, 0x01] =
        .ok (.getDescriptorConfiguration 1 0 0 0 0x01FF) ∧
      decodeSetup [0x80, 0x06, 0x03, 0x03, 0x09, 0x04, 0xFF, 0x00] =
        .ok (.getDescriptorString 1 0 3 0x0409 0x00FF) ∧
      decodeSetup [0x80, 0x06, 0x00, 0x06, 0x00, 0x00, 0x0A, 0x00] =
        .ok (.getDescriptorOther 1 0 6 0 0 0x000A) := by decide
theorem test_decode_standard_requests :
    decodeSetup [0x00, 0x05, 0x05, 0x00, 0x00, 0x00, 0x00, 0x00] = .ok (.setAddress 0 0 0x0005 0 0) ∧
      decodeSetup [0x80, 0x08, 0x00, 0x00, 0x00, 0x00, 0x01, 0x00] = .ok (.getConfiguration 1 0 0 0 0x0001) ∧
      decodeSetup [0x00, 0x09, 0x01, 0x01, 0x00, 0x00, 0x00, 0x00] = .ok (.setConfiguration 0 0 0x0101 0 0) ∧
      decodeSetup [0x81, 0x0A, 0x00, 0x00, 0x01, 0x00, 0x01, 0x00] = .ok (.getInterface 1 1 0 0x0001 0x0001) ∧
      decodeSetup [0x01, 0x0B, 0x01, 0x00, 0x01, 0x00, 0x00, 0x00] = .ok (.setInterface 0 1 0x0001 0x0001 0) ∧
      decodeSetup [0x82, 0x0C, 0x00, 0x00, 0x81, 0x00, 0x02, 0x00] = .ok (.synchFrame 1 2 0 0x0081 0x0002) := by decide
theorem test_decode_class_requests :
    decodeSetup [0x21, 0x00, 0x00, 0x00, 0x00, 0x00, 0x04, 0x00] = .ok (.sendEncapsulatedCommand 0 1 0 0 0x0004) ∧
      decodeSetup [0xA1, 0x01, 0x00, 0x00, 0x00, 0x00, 0x00, 0x01] = .ok (.getEncapsulatedResponse 1 1 0 0 0x0100) ∧
      decodeSetup [0x21, 0x20, 0x00, 0x00, 0x00, 0x00, 0x07, 0x00] = .ok (.setLineCoding 0 1 0 0 0x0007) ∧
      decodeSetup [0xA1, 0x21, 0x00, 0x00, 0x00, 0x00, 0x07, 0x00] = .ok (.getLineCoding 1 1 0 0 0x0007) ∧
      decodeSetup [0x21, 0x22, 0x03, 0x00, 0x00, 0x00, 0x00, 0x00] = .ok (.setControlLineState 0 1 0x0003 0 0) := by
  decide
/-- V-USB-45, V-USB-46, V-USB-58, V-USB-47, V-USB-48. -/
theorem test_decode_setup_refuses :
    decodeSetup [0x00, 0x07, 0x00, 0x01, 0x00, 0x00, 0x12, 0x00] = .error (.unknownRequest 0x00 0x07) ∧
      decodeSetup [0x00, 0x02, 0x00, 0x00, 0x00, 0x00, 0x00, 0x00] = .error (.unknownRequest 0x00 0x02) ∧
      decodeSetup [0x21, 0x23, 0x00, 0x00, 0x00, 0x00, 0x00, 0x00] = .error (.unknownRequest 0x21 0x23) ∧
      decodeSetup [0xC0, 0x01, 0x00, 0x00, 0x00, 0x00, 0x04, 0x00] = .error (.unknownRequest 0xC0 0x01) ∧
      decodeSetup [0xE0, 0x06, 0x00, 0x01, 0x00, 0x00, 0x12, 0x00] = .error (.unknownRequest 0xE0 0x06) := by decide

/-! ### Words of 30_encoding.md R161: the serial-bus commands -/

theorem test_decode_serial_registers :
    decodeSerial mcp2515 [0xC0] = .ok .spiReset ∧ decodeSerial mcp2515 [0x03, 0x0E, 0x00] = .ok (.spiRead 0x0E) ∧
      decodeSerial mcp2515 [0x02, 0x20, 0xFF, 0xE0, 0x00, 0x01] = .ok (.spiWrite 0x20 [0xFF, 0xE0, 0x00, 0x01]) ∧
      decodeSerial mcp2515 [0x05, 0x2C, 0x20, 0x01] = .ok (.spiBitModify 0x2C 0x20 0x01) ∧
      decodeSerial mcp2515 [0xA0, 0x00] = .ok .spiReadStatus := by decide
theorem test_decode_serial_buffers :
    decodeSerial mcp2515 [0x40, 0x24, 0x60, 0x00, 0x00, 0x00] = .ok (.spiLoadTx 0 [0x24, 0x60, 0x00, 0x00, 0x00]) ∧
      decodeSerial mcp2515 [0x42, 0x91, 0xA8, 0x56, 0x78, 0x01, 0x5A] =
        .ok (.spiLoadTx 1 [0x91, 0xA8, 0x56, 0x78, 0x01, 0x5A]) ∧
      decodeSerial mcp2515 (0x90 :: List.replicate 5 0x00) = .ok (.spiReadRx 0) ∧
      decodeSerial mcp2515 (0x94 :: List.replicate 13 0x00) = .ok (.spiReadRx 1) := by decide
/-- Slot 3 is never issued; a load has 5 to 13 bytes; a dummy is 0x00 (42_serial_bus.md R357 to R359). -/
theorem test_decode_serial_refuses :
    decodeSerial mcp2515 [0x46, 0x24, 0x60, 0x00, 0x00, 0x00] = .error (.unknownCommand 0x46) ∧
      decodeSerial mcp2515 [0x40, 0x24, 0x60, 0x00, 0x00] = .error (.badLength 0x40) ∧
      decodeSerial mcp2515 (0x90 :: List.replicate 14 0x00) = .error (.badLength 0x90) ∧
      decodeSerial mcp2515 [0xA0, 0x01] = .error (.nonzeroDummy 0xA0) := by decide

/-! ### The table's words -/

theorem test_table_words :
    decodeTableWord 8 0x30 = some (.canSend 0 0 0 #v[0, 0, 0, 0, 0, 0, 0, 0]) ∧
      decodeTableWord 32 0x00060001 = some (.getDescriptorDevice 0 0 0 0 0) ∧
      decodeTableWord 32 0x20220000 = some (.setControlLineState 0 0 0 0 0) ∧
      decodeTableWord 8 0x44 = some (.spiLoadTx 2 [0, 0, 0, 0, 0]) ∧ decodeTableWord 8 0x94 = some (.spiReadRx 1) := by
  decide

/-! ### States of the vectors (95_test_vectors.md section 0) -/

/-- The ASCII codes of "MFR" and "PROD". -/
def mfr : List Half := [0x4D, 0x46, 0x52]
def prod : List Half := [0x50, 0x52, 0x4F, 0x44]

/-- The parameters of the vectors; each preset's bytes tell its place. -/
def params : Params where
  ep0Size := .s8
  bulkSize := ⟨64, by decide⟩
  idleFlushPolls := ⟨3, by decide⟩
  sendZlp := false
  vid := 0xABCD
  pid := 0x1234
  mfrStr := mfr
  prodStr := prod
  serialTemplate := #v[0x30, 0x30, 0x30, 0x30]
  desc := none
  epNotify := 0x81
  epOut := 0x02
  epIn := 0x82
  configValue := 1
  serialSlots := #v[2, 4, 6, 8]
  serialStrIndex := 3
  lineCodingReset := #v[0x00, 0xC2, 0x01, 0x00, 0x00, 0x00, 0x08]
  chip := mcp2515
  preset := Vector.ofFn fun k => ⟨BitVec.ofNat 8 (16 * k.val + 1), BitVec.ofNat 8 (16 * k.val + 2),
    BitVec.ofNat 8 (16 * k.val + 3)⟩
  selfTest := defaultSelfTest
  inteAfterInit := 0x00
  rxLastReset := 1
  spiCpol := false
  spiCpha := false
  serialAvailable := true
  serial := #v[0x31, 0x41, 0x32, 0x42]

/-- The same with bulk buffers of 4 bytes. -/
def small : Params := { params with bulkSize := ⟨4, by decide⟩ }

/-- Power-on. -/
def start : State := State.resetWith params

/-- A configured device with buffers of a size that `cfg` gives, and nothing sent or received. -/
def configuredWith (cfg : Params) : State :=
  { State.resetWith cfg with
    dev := { (State.resetWith cfg).dev with config := cfg.configValue }
    bds := { (State.resetWith cfg).bds with bout0 := ⟨.sie, cfg.bulkSize.val⟩, bout1 := ⟨.sie, cfg.bulkSize.val⟩ } }

/-- A configured device, as the vectors have it. -/
def conf : State := configuredWith params

/-- A configured device with buffers of 4 bytes. -/
def conf4 : State := configuredWith small

/-- The outcome's next state, or the given one. -/
def nextOr (s : State) : Res → State
  | .next t => t
  | _ => s

/-- The outcome is a next state. -/
def isNext : Res → Bool
  | .next _ => true
  | _ => false

/-- The state after the step that takes a client request. -/
def after (bytes : List Byte) (s : State) : State := nextOr s (step { s with inputs := [.request bytes] })

/-- The answer to a client request, and the transactions that were sent for it. -/
def answer (bytes : List Byte) (s : State) : Option Response := (after bytes s).response
def sent (bytes : List Byte) (s : State) : List (List Byte) := (after bytes s).sentOnBus

/-- The state after the poll that handles a SETUP packet. -/
def setup (packet : Vector Byte 8) (s : State) : State :=
  nextOr s (step { sieSetup packet s with inputs := [.request [0x01]] })

/-- What the host's next IN token on endpoint 0 gets. -/
def sends (packet : Vector Byte 8) (s : State) : Option Answer := (sieIn0 (setup packet s)).answer

/-- A zero-length data packet, the first after a SETUP. -/
def zlp : Option Answer := some (.data true [])

/-- A chip register set from outside. -/
def reg (a : Byte) (v : Byte) (s : State) : State := { s with chip := s.chip.put a v }

/-- The chip in normal mode. -/
def normal : State := reg 0x0E 0x00 (reg 0x0F 0x00 start)

/-! ### The bulk endpoints (V-BULK) -/

/-- Three bytes put and not flushed, after two idle polls. -/
def three : State :=
  { conf4 with
    mem := [(0x80, 0x41), (0x81, 0x42), (0x82, 0x43)]
    bin := ⟨0, 3, 2⟩ }

/-- Both bulk-OUT buffers received: `61 62` and `63`. -/
def received : State :=
  { conf4 with
    mem := [(0x100, 0x61), (0x101, 0x62), (0x140, 0x63)]
    bds := { conf4.bds with bout0 := ⟨.sw, 2⟩, bout1 := ⟨.sw, 1⟩ }
    sie := { conf4.sie with queue := [.doneBout 0, .doneBout 1] } }

/-- L1.8: the third idle poll flushes. -/
theorem test_usb_poll_flushes :
    let t := after [0x01] three
    t.response = some ⟨.ok, []⟩ ∧ t.bin = ⟨1, 0, 0⟩ ∧ t.bd (.bin 0) = ⟨.sie, 3⟩ := by decide +kernel
/-- V-BULK-17: one event a poll. -/
theorem test_usb_poll_takes_one_event : (after [0x01] received).sie.queue = [.doneBout 1] := by decide +kernel
/-- V-BULK-1, V-BULK-2. -/
theorem test_usb_ready :
    answer [0x02] start = some ⟨.ok, [0x00]⟩ ∧ answer [0x02] conf = some ⟨.ok, [0x01]⟩ := by decide +kernel
/-- V-BULK-4: the fourth byte fills the buffer. -/
theorem test_usb_put_fills :
    let t := after [0x03, 0x44] three
    t.response = some ⟨.ok, []⟩ ∧ t.bd (.bin 0) = ⟨.sie, 4⟩ ∧ t.bin = ⟨1, 0, 0⟩ ∧
      t.armedBytes (.bin 0) = [0x41, 0x42, 0x43, 0x44] := by decide +kernel
/-- V-BULK-1: a byte put before configuration is dropped. -/
theorem test_usb_put_drops :
    let t := after [0x03, 0x41] start
    t.response = some ⟨.ok, []⟩ ∧ t.bin.fill = 0 ∧ t.mem = [] := by decide +kernel
/-- V-BULK-10, and V-BULK-6. -/
theorem test_usb_flush :
    (after [0x04] three).bd (.bin 0) = ⟨.sie, 3⟩ ∧ (after [0x04] three).bin = ⟨1, 0, 0⟩ ∧
      (after [0x04] conf).bd (.bin 0) = ⟨.sw, 0⟩ ∧ (after [0x04] conf).bin = ⟨0, 0, 0⟩ := by decide +kernel
/-- V-BULK-12, V-BULK-13. -/
theorem test_usb_has_data :
    answer [0x05] received = some ⟨.ok, [0x01]⟩ ∧ answer [0x05] conf = some ⟨.ok, [0x00]⟩ := by decide +kernel
/-- V-BULK-14: the last byte of a buffer hands it back. -/
theorem test_usb_get_last_byte :
    let t := after [0x06] { received with bout := ⟨0, 1⟩ }
    t.response = some ⟨.ok, [0x62]⟩ ∧ t.bd (.bout 0) = ⟨.sie, 4⟩ ∧ t.bout = ⟨1, 0⟩ := by decide +kernel
/-- V-BULK-12: a byte that is not the last. -/
theorem test_usb_get :
    let t := after [0x06] received
    t.response = some ⟨.ok, [0x61]⟩ ∧ t.bd (.bout 0) = ⟨.sw, 2⟩ ∧ t.bout = ⟨0, 1⟩ := by decide +kernel

/-! ### USB control requests (V-USB) -/

/-- V-USB-33, V-USB-37. -/
theorem test_get_status :
    sends #v[0x82, 0x00, 0x00, 0x00, 0x82, 0x00, 0x02, 0x00]
        { conf with dev := { conf.dev with halt := ⟨false, false, true⟩ } } = some (.data true [0x01, 0x00]) ∧
      (setup #v[0x80, 0x00, 0x00, 0x00, 0x00, 0x00, 0x02, 0x00] conf).ctl.stall = true := by decide +kernel
/-- V-USB-43: the halt is cleared, and the toggle of the endpoint restarts. -/
theorem test_clear_feature :
    let t := setup #v[0x02, 0x01, 0x00, 0x00, 0x82, 0x00, 0x00, 0x00]
      { conf with dev := { conf.dev with halt := ⟨true, true, true⟩ } }
    t.dev.halt = ⟨true, true, false⟩ ∧ t.pulses = [.toggleReset .in_] ∧ (sieIn0 t).answer = zlp := by decide +kernel
/-- V-USB-39, V-USB-40. -/
theorem test_set_feature :
    (setup #v[0x02, 0x03, 0x00, 0x00, 0x82, 0x00, 0x00, 0x00] conf).dev.halt = ⟨false, false, true⟩ ∧
      (setup #v[0x02, 0x03, 0x01, 0x00, 0x82, 0x00, 0x00, 0x00] conf).ctl.stall = true := by decide +kernel
/-- V-USB-19: the address waits for the status stage; V-USB-21. -/
theorem test_set_address :
    let t := setup #v[0x00, 0x05, 0x05, 0x00, 0x00, 0x00, 0x00, 0x00] start
    t.ctl.pendingAddr = some 5 ∧ t.dev.addr = 0 ∧ (sieIn0 t).answer = zlp ∧
      (setup #v[0x00, 0x05, 0x80, 0x00, 0x00, 0x00, 0x00, 0x00] start).ctl.stall = true := by decide +kernel
/-- V-USB-1, V-USB-4. -/
theorem test_get_descriptor_device :
    sends #v[0x80, 0x06, 0x00, 0x01, 0x00, 0x00, 0x40, 0x00] start =
        some (.data true [0x12, 0x01, 0x00, 0x02, 0x02, 0x00, 0x00, 0x08]) ∧
      (setup #v[0x80, 0x06, 0x01, 0x01, 0x00, 0x00, 0x12, 0x00] start).ctl.stall = true := by decide +kernel
/-- V-USB-5: the first packet, and the byte that is left. -/
theorem test_get_descriptor_configuration :
    let t := setup #v[0x80, 0x06, 0x00, 0x02, 0x00, 0x00, 0x09, 0x00] start
    (sieIn0 t).answer = some (.data true [0x09, 0x02, 0x43, 0x00, 0x02, 0x01, 0x00, 0x80]) ∧
      t.ctl.xfer.map (fun x => (x.off, x.rem)) = some (8, 1) := by decide +kernel
/-- V-USB-8: the serial number's characters stand in their places; V-USB-12. -/
theorem test_get_descriptor_string :
    sends #v[0x80, 0x06, 0x03, 0x03, 0x09, 0x04, 0xFF, 0x00] start =
        some (.data true [0x0A, 0x03, 0x31, 0x00, 0x41, 0x00, 0x32, 0x00]) ∧
      (setup #v[0x80, 0x06, 0x04, 0x03, 0x09, 0x04, 0xFF, 0x00] start).ctl.stall = true := by decide +kernel
/-- The template stands at SERIAL_STR_INDEX, where iSerialNumber points (90_conflicts.md C4; assumption 40). -/
theorem test_serial_string_index :
    let d := referenceDescriptors { params with serialStrIndex := 5 }
    d.device.getD 16 0 = 5 ∧ d.strings[5]? = some (some (serialString #v[0x30, 0x30, 0x30, 0x30])) ∧
      d.strings[4]? = some none := by decide +kernel
/-- V-USB-13. -/
theorem test_get_descriptor_other :
    (setup #v[0x80, 0x06, 0x00, 0x06, 0x00, 0x00, 0x0A, 0x00] start).ctl.stall = true := by decide +kernel
/-- V-USB-28. -/
theorem test_get_configuration :
    sends #v[0x80, 0x08, 0x00, 0x00, 0x00, 0x00, 0x01, 0x00] conf = some (.data true [0x01]) := by decide +kernel
/-- V-USB-27: `wValue[15:8]` is ignored; V-USB-26. -/
theorem test_set_configuration :
    let t := setup #v[0x00, 0x09, 0x01, 0x01, 0x00, 0x00, 0x00, 0x00] start
    t.dev.config = 1 ∧ t.bd (.bout 0) = ⟨.sie, 64⟩ ∧ t.bd (.bout 1) = ⟨.sie, 64⟩ ∧
      (setup #v[0x00, 0x09, 0x02, 0x00, 0x00, 0x00, 0x00, 0x00] start).ctl.stall = true := by decide +kernel
/-- V-USB-29, V-USB-30. -/
theorem test_get_interface :
    sends #v[0x81, 0x0A, 0x00, 0x00, 0x01, 0x00, 0x01, 0x00] start = some (.data true [0x00]) ∧
      (setup #v[0x81, 0x0A, 0x00, 0x00, 0x02, 0x00, 0x01, 0x00] start).ctl.stall = true := by decide +kernel
/-- V-USB-31, V-USB-32. -/
theorem test_set_interface :
    sends #v[0x01, 0x0B, 0x00, 0x00, 0x01, 0x00, 0x00, 0x00] start = zlp ∧
      (setup #v[0x01, 0x0B, 0x01, 0x00, 0x01, 0x00, 0x00, 0x00] start).ctl.stall = true := by decide +kernel
/-- V-USB-44. -/
theorem test_synch_frame :
    sends #v[0x82, 0x0C, 0x00, 0x00, 0x81, 0x00, 0x02, 0x00] start = some (.data true [0x00, 0x00]) := by decide +kernel
/-- V-USB-56. -/
theorem test_send_encapsulated_command :
    sends #v[0x21, 0x00, 0x00, 0x00, 0x00, 0x00, 0x04, 0x00] start = zlp := by decide +kernel
/-- V-USB-57. -/
theorem test_get_encapsulated_response :
    sends #v[0xA1, 0x01, 0x00, 0x00, 0x00, 0x00, 0x00, 0x01] start = zlp := by decide +kernel
/-- V-USB-49: the data stage is awaited and nothing is armed; V-USB-51. -/
theorem test_set_line_coding :
    let t := setup #v[0x21, 0x20, 0x00, 0x00, 0x00, 0x00, 0x07, 0x00] start
    t.ctl.lcPending = true ∧ (sieIn0 t).answer = some .nak ∧
      sends #v[0x21, 0x20, 0x00, 0x00, 0x00, 0x00, 0x00, 0x00] start = zlp := by decide +kernel
/-- V-USB-50: a data stage of 4 bytes changes 4 bytes. -/
theorem test_line_coding_data :
    let s := sieOut0 [0x80, 0x25, 0x00, 0x00] { start with ctl := { start.ctl with lcPending := true } }
    (after [0x01] s).dev.lineCoding = #v[0x80, 0x25, 0x00, 0x00, 0x00, 0x00, 0x08] := by decide +kernel
/-- V-USB-53, V-USB-54. -/
theorem test_get_line_coding :
    sends #v[0xA1, 0x21, 0x00, 0x00, 0x00, 0x00, 0x07, 0x00] start =
        some (.data true [0x00, 0xC2, 0x01, 0x00, 0x00, 0x00, 0x08]) ∧
      sends #v[0xA1, 0x21, 0x00, 0x00, 0x00, 0x00, 0x02, 0x00] start = some (.data true [0x00, 0xC2]) := by decide +kernel
/-- V-USB-55. -/
theorem test_set_control_line_state :
    sends #v[0x21, 0x22, 0x03, 0x00, 0x00, 0x00, 0x00, 0x00] start = zlp := by decide +kernel

/-! ### Raw register operations and serial commands (V-SPI) -/

/-- Slots 1 and 2 are busy. -/
def twoBusy : State := reg 0x40 0x0B (reg 0x50 0x0B normal)

/-- V-SPI-1, V-RST-4: RESET frees the slots, and the block remembers its priorities. -/
theorem test_can_reset :
    let s := { twoBusy with can := { twoBusy.can with slotPrio := #v[3, 1, 2] } }
    sent [0x10] s = [[0xC0]] ∧ answer [0x10] s = some ⟨.ok, []⟩ ∧ (after [0x10] s).chip.status mcp2515 = 0x00 ∧
      (after [0x10] s).can.slotPrio = #v[3, 1, 2] := by decide +kernel
/-- V-SPI-2. -/
theorem test_can_read_reg :
    sent [0x11, 0x0E] start = [[0x03, 0x0E, 0x00]] ∧ answer [0x11, 0x0E] start = some ⟨.ok, [0x80]⟩ := by decide +kernel
/-- V-SPI-4. -/
theorem test_can_write_reg :
    sent [0x12, 0x0F, 0x00] start = [[0x02, 0x0F, 0x00]] ∧ (after [0x12, 0x0F, 0x00] start).chip.reg 0x0F = 0x00 := by
  decide +kernel
/-- V-SPI-5: ERRIF is cleared and nothing else; V-SPI-6. -/
theorem test_can_bit_modify :
    sent [0x13, 0x2C, 0x20, 0x00] (reg 0x2C 0xFF start) = [[0x05, 0x2C, 0x20, 0x00]] ∧
      (after [0x13, 0x2C, 0x20, 0x00] (reg 0x2C 0xFF start)).chip.reg 0x2C = 0xDF ∧
      (after [0x13, 0x2C, 0x00, 0xFF] (reg 0x2C 0x20 start)).chip.reg 0x2C = 0x20 := by decide +kernel
/-- V-SPI-7, V-SPI-8, V-SPI-9. -/
theorem test_can_read_status :
    sent [0x14] twoBusy = [[0xA0, 0x00]] ∧ answer [0x14] twoBusy = some ⟨.ok, [0x50]⟩ ∧
      answer [0x14] (reg 0x2C 0x01 (reg 0x30 0x08 start)) = some ⟨.ok, [0x05]⟩ ∧
      answer [0x14] (reg 0x2C 0x1C start) = some ⟨.ok, [0xA8]⟩ := by decide +kernel

/-- A serial transaction by itself. -/
def transact (bytes : List Byte) (s : State) : State := nextOr s (step { s with bench := some bytes })

theorem test_spi_reset : (transact [0xC0] twoBusy).chip.status mcp2515 = 0x00 := by decide +kernel
theorem test_spi_read :
    ((transact [0x03, 0x0E, 0x00] start).txns.map fun x => x.miso.drop 2) = [[0x80]] := by decide +kernel
/-- The bytes of one WRITE go to consecutive registers (42_serial_bus.md R354). -/
theorem test_spi_write :
    let t := transact [0x02, 0x20, 0xFF, 0xE0, 0x12, 0x34] start
    [t.chip.reg 0x20, t.chip.reg 0x21, t.chip.reg 0x22, t.chip.reg 0x23] = [0xFF, 0xE0, 0x12, 0x34] := by decide +kernel
theorem test_spi_bit_modify : (transact [0x05, 0x2C, 0x0F, 0x05] (reg 0x2C 0xF0 start)).chip.reg 0x2C = 0xF5 := by
  decide +kernel
theorem test_spi_read_status :
    ((transact [0xA0, 0x00] twoBusy).txns.map fun x => x.miso.drop 1) = [[0x50]] := by decide +kernel
/-- Slot 1 begins at 0x41 (43_can_config.md R400). -/
theorem test_spi_load_tx :
    let t := transact [0x42, 0x91, 0xA8, 0x56, 0x78, 0x01, 0x5A] start
    t.chip.readList 0x41 6 = [0x91, 0xA8, 0x56, 0x78, 0x01, 0x5A] := by decide +kernel
/-- The end of READ RX frees the buffer (42_serial_bus.md R358). -/
theorem test_spi_read_rx : (transact [0x94, 0x00, 0x00, 0x00, 0x00, 0x00] (reg 0x2C 0xFF start)).chip.reg 0x2C = 0xFD := by
  decide +kernel

/-! ### CAN configuration (V-CFG) -/

/-- V-CFG-5: a correctly wired chip; the wire of RX1BF broken. -/
theorem test_can_init :
    answer [0x20] twoBusy = some ⟨.ok, [0x01]⟩ ∧ (sent [0x20] twoBusy).length = 20 ∧
      answer [0x20] { twoBusy with pins := { twoBusy.pins with rx1 := .stuck false } } = some ⟨.ok, [0x00]⟩ := by
  decide +kernel
/-- V-CFG-1; L1.7: the chip ignores the writes outside configuration mode. -/
theorem test_can_set_timing :
    sent [0x21, 0x03, 0xB6, 0x04] start = [[0x02, 0x2A, 0x03], [0x02, 0x29, 0xB6], [0x02, 0x28, 0x04]] ∧
      (after [0x21, 0x03, 0xB6, 0x04] start).chip.readList 0x28 3 = [0x04, 0xB6, 0x03] ∧
      (after [0x21, 0x03, 0xB6, 0x04] normal).chip.readList 0x28 3 = [0x00, 0x00, 0x00] := by decide +kernel
/-- V-CFG-2. -/
theorem test_can_set_preset :
    sent [0x22, 0x08] start = [[0x02, 0x2A, 0x81], [0x02, 0x29, 0x82], [0x02, 0x28, 0x83]] ∧
      answer [0x22, 0x09] start = some ⟨.no, []⟩ ∧ sent [0x22, 0x09] start = [] := by decide +kernel
/-- L1.6. -/
theorem test_can_set_mask :
    sent [0x23, 0x00, 0x1F, 0xFF, 0xFF] start =
      [[0x02, 0x20, 0xFF, 0xE0, 0x00, 0x00], [0x02, 0x24, 0xFF, 0xE0, 0x00, 0x00]] := by decide +kernel
/-- L1.6. -/
theorem test_can_set_code :
    sent [0x24, 0x24, 0x60, 0x00, 0x00] start =
      [[0x02, 0x00, 0x24, 0x60, 0x00, 0x00], [0x02, 0x04, 0x24, 0x68, 0x00, 0x00],
        [0x02, 0x08, 0x24, 0x60, 0x00, 0x00], [0x02, 0x10, 0x24, 0x68, 0x00, 0x00],
        [0x02, 0x14, 0x24, 0x60, 0x00, 0x00], [0x02, 0x18, 0x24, 0x68, 0x00, 0x00]] := by decide +kernel
/-- V-CFG-4. -/
theorem test_can_read_errflags :
    answer [0x25] (reg 0x2D 0x45 start) = some ⟨.ok, [0x03]⟩ ∧ answer [0x25] (reg 0x2D 0x39 start) = some ⟨.ok, [0x0D]⟩ ∧
      answer [0x25] (reg 0x2D 0x06 start) = some ⟨.ok, [0x00]⟩ := by decide +kernel

/-! ### CAN transmission and reception (V-TX, V-RX) -/

/-- L1.4: the frame `t1232ABCD`, all slots free. -/
theorem test_can_send :
    let r := [0x30, 0x00, 0x00, 0x00, 0x01, 0x23, 0x02, 0xAB, 0xCD, 0x00, 0x00, 0x00, 0x00, 0x00, 0x00]
    sent r normal = [[0xA0, 0x00], [0x44, 0x24, 0x60, 0x00, 0x00, 0x02, 0xAB, 0xCD], [0x02, 0x50, 0x0B]] ∧
      answer r normal = some ⟨.ok, []⟩ ∧ (after r normal).can.slotPrio = #v[0, 0, 3] := by decide +kernel
/-- P2, step 6: two promotions, older slot 2 and newer slot 1. -/
theorem test_can_send_promotes :
    sent [0x30, 0x02, 0x00, 0x00, 0x07, 0xFF, 0x00, 0x00, 0x00, 0x00, 0x00, 0x00, 0x00, 0x00, 0x00]
        { twoBusy with can := { twoBusy.can with slotPrio := #v[0, 3, 3] } } =
      [[0xA0, 0x00], [0x05, 0x50, 0x03, 0x03], [0x05, 0x40, 0x03, 0x03], [0x40, 0xFF, 0xE0, 0x00, 0x00, 0x40],
        [0x02, 0x30, 0x0A]] := by decide +kernel

/-- P3, step 1: a standard frame in buffer 0 and an extended remote frame in buffer 1, at clock 59999. -/
def bothFull : State :=
  { start with
    chip := ((start.chip.put 0x0C 0x0F).putList 0x61 [0x24, 0x60, 0x00, 0x00, 0x02, 0xAB, 0xCD]).putList 0x71
      [0x91, 0xA8, 0x56, 0x78, 0x44] |>.put 0x2C 0x03
    clock := 59999 }

/-- P3, step 2, at the clock of step 4: the buffer not serviced last is read. -/
theorem test_can_receive :
    sent [0x31] bothFull = [0x90 :: List.replicate 7 0x00] ∧
      answer [0x31] bothFull =
        some ⟨.ok, [0x00, 0x00, 0x00, 0x01, 0x23, 0x02, 0xAB, 0xCD, 0x00, 0x00, 0x00, 0x00, 0x00, 0x00, 0xEA, 0x5F]⟩ ∧
      (after [0x31] bothFull).chip.reg 0x2C = 0x02 ∧ (after [0x31] bothFull).can.rxLast = 0 := by decide +kernel
/-- P3, step 4: a remote frame has no payload. -/
theorem test_can_receive_remote :
    let s := { bothFull with can := { bothFull.can with rxLast := 0 } }
    sent [0x31] s = [0x94 :: List.replicate 5 0x00] ∧
      answer [0x31] s =
        some ⟨.ok, [0x03, 0x12, 0x34, 0x56, 0x78, 0x04, 0x00, 0x00, 0x00, 0x00, 0x00, 0x00, 0x00, 0x00, 0xEA, 0x5F]⟩ := by
  decide +kernel

/-- After a RESET the next receive sees no pins (42_serial_bus.md R352). -/
theorem test_can_receive_after_reset :
    answer [0x31] (after [0x10] bothFull) = some ⟨.no, []⟩ ∧ sent [0x31] (after [0x10] bothFull) = [] := by
  decide +kernel

/-! ### The agents -/

/-- A frame that has been started is not touched by a rewrite of its priority (44_can_tx.md R460). -/
theorem test_started_frame_is_sent :
    let s := outsideAct (.chip .start) twoBusy
    let t := outsideAct (.chip .complete) (after [0x13, 0x50, 0x03, 0x00] s)
    t.chip.sentSlots = [2] ∧ t.chip.txreq mcp2515 2 = false ∧ t.chip.txreq mcp2515 1 = true := by decide +kernel
/-- A frame that finds both buffers full sets RX1OVR, and with ERRIE the error flag and pin (45_can_rx.md R511,
60_exceptions.md R609). -/
theorem test_overrun_is_recorded :
    let s := reg 0x2C 0x03 (reg 0x2B 0x20 (reg 0x60 0x04 normal))
    let t := outsideAct (.chip (.receive ⟨false, false, 0x123, 2, Vector.replicate 8 0⟩)) s
    t.chip.reg 0x2D = 0x80 ∧ t.chip.reg 0x2C = 0x23 ∧ t.pinNow .err = true := by decide +kernel
/-- A full buffer is not overwritten, and the frame goes to buffer 1 (43_can_config.md R409, 60_exceptions.md R613). -/
theorem test_received_frame_rolls_over :
    let s := reg 0x60 0x04 normal
    let f : CanFrame := ⟨false, false, 0x123, 2, Vector.replicate 8 0x5A⟩
    let t := outsideAct (.chip (.receive { f with id := 0x456 })) (outsideAct (.chip (.receive f)) s)
    [t.chip.reg 0x61, t.chip.reg 0x66, t.chip.reg 0x71, t.chip.reg 0x2C] = [0x24, 0x5A, 0x8A, 0x03] := by
  decide +kernel
/-- A SETUP is stored over an OUT packet that the block has not handled, with an event of its own
(60_exceptions.md R612 items 1 and 3), and the block's handling of it is not lost. -/
theorem test_setup_over_an_unhandled_packet :
    let a := sieSettle (sieToken (.setup 0 #v[0x80, 0x08, 0, 0, 0, 0, 1, 0]) (sieToken (.outToken 0 0 []) conf))
    a.answer = some .ack ∧ a.sie.queue = [.doneEp0out, .doneEp0out] ∧ a.bd .ep0out = ⟨.sw, 8⟩ ∧
      (after [0x01] (after [0x01] a)).bd .ep0in = ⟨.sie, 1⟩ ∧ ((after [0x01] (after [0x01] a)).bd .ep0out).own = .sie := by
  decide +kernel
/-- Every IN token on the notification endpoint gets NAK, also while it is halted (10_state.md R50; D11). -/
theorem test_notification_endpoint_answers_nak :
    (sieToken (.inToken 0 1) { conf with dev := { conf.dev with halt := ⟨true, true, true⟩ } }).answer = some .nak ∧
      (sieToken (.inToken 0 1) conf).answer = some .nak := by decide +kernel
/-- A bulk-OUT buffer that the SIE gives up in a bus reset holds no byte (10_state.md R41). -/
theorem test_given_up_buffer_is_empty :
    (sieBusReset conf4).bd (.bout 0) = ⟨.sw, 0⟩ ∧ answer [0x05] (sieBusReset conf4) = some ⟨.ok, [0x00]⟩ := by
  decide +kernel

/-! ### The step -/

/-- V-EXC-2. -/
theorem test_illegal : answer [0x7F] start = some ⟨.illegal, []⟩ ∧ answer [0x00] start = some ⟨.illegal, []⟩ := by
  decide +kernel
/-- A request with a wrong number of operand bytes cannot be presented (30_encoding.md R141). -/
theorem test_bad_framing : step { start with inputs := [.request [0x03]] } = .refused .badFraming := rfl
/-- L1.9: the clock wraps from 59999 to 0. -/
theorem test_clock_wraps : (tick { start with clock := 59999 }).clock = 0 := by decide +kernel

/-! ### Checkers of the invariants on a concrete state -/

/-- The six buffers. -/
def bufs : List Buf := [.ep0out, .ep0in, .bin 0, .bin 1, .bout 0, .bout 1]

theorem mem_bufs (b : Buf) : b ∈ bufs := by
  rcases b with _ | _ | k | k
  · decide
  · decide
  · fin_cases k <;> decide
  · fin_cases k <;> decide

/-- The invariant, each field checked. -/
def invHolds (s : State) : Bool :=
  s.mem.wf && decide (s.serial = ⟨true, s.cfg.spiCpol⟩) && decide (s.clock.toNat < 60000) &&
  decide (s.dev.config = 0 ∨ s.dev.config = s.cfg.configValue) &&
  bufs.all (fun b => decide ((s.bd b).count ≤ b.size s.cfg)) &&
  decide (0 < s.bin.fill → (s.bd (.bin s.bin.active)).own = .sw) && decide (s.bin.fill < s.cfg.bulkSize.val) &&
  decide (s.bin.idle < s.cfg.idleFlushPolls.val) && decide (s.bin.fill = 0 → s.bin.idle = 0) &&
  decide (0 < s.bout.pos →
    (s.bd (.bout s.bout.active)).own = .sw ∧ s.bout.pos < (s.bd (.bout s.bout.active)).count) &&
  decide (s.dev.config = 0 →
    s.bin.fill = 0 ∧ s.bout.pos = 0 ∧ ∀ k, (s.bd (.bin k)).own = .sw ∧ (s.bd (.bout k)).own = .sw) &&
  decide (s.bds.ep0setup = true → s.bd .ep0out = ⟨.sw, 8⟩) && decide (s.ctl.stall = true → s.ctl = idleCtl true) &&
  decide ((s.ctl.pendingAddr.isSome → s.ctl.lcPending = false ∧ s.ctl.xfer = none) ∧
    (s.ctl.lcPending = true → s.ctl.xfer = none)) &&
  s.ctl.xfer.all (fun x => decide (x.off + x.rem ≤ x.data.length ∧ x.off + x.rem ≤ 65535))

theorem inv_of {s : State} (h : invHolds s = true) : s.Inv := by
  simp only [invHolds, Bool.and_eq_true, decide_eq_true_eq, List.all_eq_true] at h
  obtain ⟨⟨⟨⟨⟨⟨⟨⟨⟨⟨⟨⟨⟨⟨h1, h2⟩, h3⟩, h4⟩, h5⟩, h6⟩, h7⟩, h8⟩, h9⟩, h10⟩, h11⟩, h12⟩, h13⟩, h14⟩, h15⟩ := h
  refine ⟨h1, h2, h3, h4, fun b => h5 b (mem_bufs b), h6, h7, h8, h9, h10, h11, h12, h13, h14, fun x hx => ?_⟩
  rw [hx] at h15
  simpa using h15

/-- Nothing of endpoint 0 completes after the last OUT event. -/
def lastIsOut : List SieEvent → Bool
  | [] => false
  | ev :: q => lastIsOut q || (ev == .doneEp0out && !q.contains .doneEp0out && !q.contains .doneEp0in)

theorem lastIsOut_of : ∀ {q : List SieEvent}, lastIsOut q = true →
    ∃ before after, q = before ++ .doneEp0out :: after ∧ .doneEp0out ∉ after ∧ .doneEp0in ∉ after
  | ev :: q, h => by
    simp only [lastIsOut, Bool.or_eq_true, Bool.and_eq_true, beq_iff_eq, Bool.not_eq_true',
      List.contains_eq_mem, decide_eq_false_iff_not] at h
    rcases h with h | ⟨⟨rfl, ho⟩, hi⟩
    · obtain ⟨b, a, rfl, ha⟩ := lastIsOut_of h
      exact ⟨ev :: b, a, rfl, ha⟩
    · exact ⟨[], q, rfl, ho, hi⟩

/-- The agreement on endpoint 0, each field checked. -/
def ep0Holds (s : State) : Bool :=
  decide ((s.bd .ep0out).own = .sw → .doneEp0out ∈ s.sie.queue ∨ .busReset ∈ s.sie.queue) &&
  decide (.doneEp0out ∈ s.sie.queue →
    (s.bd .ep0out).own = .sw ∧ (s.bds.ep0setup = true ∨ s.sie.queue.count .doneEp0out = 1)) &&
  decide (.doneEp0in ∈ s.sie.queue → (s.bd .ep0in).own = .sw ∧ s.sie.queue.count .doneEp0in = 1) &&
  decide (s.sie.queue.Pairwise fun a b =>
    a = .busReset → b ≠ .doneEp0in ∧ (b = .doneEp0out → s.bds.ep0setup = true)) &&
  decide (s.resetWaits = true → bufs.all (fun b => decide ((s.bd b).own = .sw)) = true) &&
  decide (s.bds.ep0setup = true → (s.bd .ep0in).own = .sw ∧ lastIsOut s.sie.queue = true) &&
  decide (s.ctl.lcPending = true →
    s.bds.ep0setup = true ∨ ((s.bd .ep0in).own = .sw ∧ .doneEp0in ∉ s.sie.queue))

theorem ep0_of {s : State} (h : ep0Holds s = true) : s.Ep0InStep := by
  simp only [ep0Holds, Bool.and_eq_true, decide_eq_true_eq, List.all_eq_true] at h
  obtain ⟨⟨⟨⟨⟨⟨h1, h2⟩, h3⟩, h4⟩, h5⟩, h6⟩, h7⟩ := h
  exact ⟨h1, h2, h3, h4, fun hr b => h5 hr b (mem_bufs b), fun hs => ⟨(h6 hs).1, lastIsOut_of (h6 hs).2⟩, h7⟩

/-- The alternation, checked. -/
def alternates (active next : Fin 2) (own : Fin 2 → Owner) : Bool :=
  decide (own active = own (1 - active) → next = active) &&
    decide (own active ≠ own (1 - active) → own active = .sw ∧ next = 1 - active)

def pingPongHolds (s : State) : Bool :=
  alternates s.bin.active s.sie.nextIn (fun k => (s.bd (.bin k)).own) &&
    alternates s.bout.active s.sie.nextOut (fun k => (s.bd (.bout k)).own)

theorem pingPong_of {s : State} (h : pingPongHolds s = true) : s.PingPong := by
  simp only [pingPongHolds, alternates, Bool.and_eq_true, decide_eq_true_eq] at h
  exact ⟨⟨h.1.1, h.1.2⟩, ⟨h.2.1, h.2.2⟩⟩

theorem next_of {r : Res} (h : isNext r = true) : ∃ t, r = .next t := by
  cases r with
  | next t => exact ⟨t, rfl⟩
  | fault e => cases h
  | refused e => cases h

/-! ### Witnesses: encoding -/

/-- The default table, and another one whose command bytes differ. -/
theorem witness_DecodeOfEncode :
    mcp2515.commands.Nodup ∧ ({ mcp2515 with cmdReset := 0xFF } : ChipTable).commands.Nodup ∧
      (Instr.spiLoadTx 2 (List.replicate 5 0)).wellFormed = true ∧
      (Instr.spiLoadTx 2 (List.replicate 13 0)).wellFormed = true ∧ (Instr.spiWrite 0x0F [0]).wellFormed = true ∧
      (Instr.getDescriptorOther 1 0 0 0 0 0).wellFormed = true ∧
      (Instr.getDescriptorOther 1 0 4 0 0 0).wellFormed = true := by decide
theorem witness_EncodeOfDecode :
    decode mcp2515 .client [0x31] = .ok .canReceive ∧
      decode mcp2515 .serial (0x90 :: List.replicate 5 0) = .ok (.spiReadRx 0) ∧
      decode mcp2515 .serial (0x90 :: List.replicate 13 0) = .ok (.spiReadRx 0) := by decide
theorem witness_UnknownOpCodeIsIllegal :
    (0x00 : Byte).toNat ∉ [0x01, 0x02, 0x03, 0x04, 0x05, 0x06, 0x10, 0x11, 0x12, 0x13, 0x14, 0x20, 0x21, 0x22, 0x23,
        0x24, 0x25, 0x30, 0x31] ∧
      ({ start with inputs := [.request [0x00]] } : State).inputs = .request (0x00 :: []) :: [] ∧
      start.bench = none := by decide
/-- A vendor request, a standard code and a class code outside the tables: one state for each clause. -/
theorem witness_UnknownRequestStalls :
    let a := sieSetup #v[0xC0, 0, 0, 0, 0, 0, 0, 0] start
    let b := sieSetup #v[0x00, 0x0D, 0, 0, 0, 0, 0, 0] start
    let c := sieSetup #v[0x21, 0x23, 0, 0, 0, 0, 0, 0] start
    ((a.bd .ep0out).own = .sw ∧ 2 ≤ (bmType (a.byteAt .ep0out 0)).toNat) ∧
      ((b.bd .ep0out).own = .sw ∧ bmType (b.byteAt .ep0out 0) = 0 ∧
        (b.byteAt .ep0out 1).toNat ∉ [0x00, 0x01, 0x03, 0x05, 0x06, 0x08, 0x09, 0x0A, 0x0B, 0x0C]) ∧
      ((c.bd .ep0out).own = .sw ∧ bmType (c.byteAt .ep0out 0) = 1 ∧
        (c.byteAt .ep0out 1).toNat ∉ [0x00, 0x01, 0x20, 0x21, 0x22]) := by decide +kernel

/-! ### Witnesses: the step -/

theorem witness_StepRunsTheDecodedOperation :
    decodeClient [0x02] = .ok .usbReady ∧ decodeSerial start.cfg.chip [0xC0] = .ok .spiReset ∧ start.bench = none ∧
      ({ start with inputs := [.request [0x02]] } : State).inputs = .request [0x02] :: [] ∧
      ({ start with bench := some [0xC0] } : State).bench = some [0xC0] ∧
      ({ start with inputs := [.token .busReset] } : State).inputs = .token .busReset :: [] ∧
      ({ start with inputs := [.outside (.chip .start)] } : State).inputs = .outside (.chip .start) :: [] ∧
      ({ start with inputs := [.tick] } : State).inputs = .tick :: [] ∧ start.inputs = [] := by
  decide +kernel
theorem witness_PollRunsTheDecodedRequest :
    let s := sieSetup #v[0x00, 0x09, 0x01, 0x00, 0, 0, 0, 0] start
    s.sie.queue = .doneEp0out :: [] ∧ s.bd .ep0out = ⟨.sw, 8⟩ ∧ s.bds.ep0setup = true ∧
      decodeSetup (s.mem.readList Buf.ep0out.base 8) = .ok (.setConfiguration 0 0 1 0 0) := by decide +kernel

/-- A configured device that has put three bytes, with a poll as its next input. -/
def polled : State := { three with inputs := [.request [0x01]] }

theorem witness_InvariantsHoldAtReset : start.cfg.chip = mcp2515 := rfl

theorem witness_StepKeepsTheInvariant : polled.Inv ∧ ∃ t, step polled = .next t :=
  ⟨inv_of (by decide +kernel), next_of (by decide +kernel)⟩
theorem witness_StepKeepsTheAlternation : polled.Inv ∧ polled.InStep ∧ ∃ t, step polled = .next t :=
  ⟨inv_of (by decide +kernel), .inr (pingPong_of (by decide +kernel)), next_of (by decide +kernel)⟩

/-- A SETUP packet waits, and a poll is the next input. -/
def setupPolled : State :=
  { sieSetup #v[0x80, 0x06, 0x00, 0x01, 0x00, 0x00, 0x12, 0x00] conf with inputs := [.request [0x01]] }

theorem witness_NoStepFaults : setupPolled.Inv ∧ setupPolled.Ep0InStep ∧ ∃ t, step setupPolled = .next t :=
  ⟨inv_of (by decide +kernel), ep0_of (by decide +kernel), next_of (by decide +kernel)⟩

/-- The status stage of a SET_ADDRESS has completed; a bus reset waits. -/
def addressed : State :=
  { conf with
    dev := { conf.dev with addr := 3 }
    ctl := { conf.ctl with pendingAddr := some 5 }
    sie := { conf.sie with queue := [.doneEp0in] }
    inputs := [.request [0x01]] }
def resetWaits : State := { sieBusReset { addressed with sie := conf.sie } with sie := { conf.sie with queue := [.busReset] } }

theorem witness_AddressChangesOnlyAsPending :
    (∃ t, step addressed = .next t) ∧ (∃ t, step resetWaits = .next t) ∧
      (nextOr start (step addressed)).dev.addr = 5 ∧ (nextOr start (step resetWaits)).dev.addr = 0 :=
  ⟨next_of (by decide +kernel), next_of (by decide +kernel), by decide +kernel, by decide +kernel⟩

/-- In protocol stall, a SETUP packet or a bus reset waits. -/
def stalledSetup : State := { setupPolled with ctl := idleCtl true }
def stalledReset : State := { resetWaits with ctl := idleCtl true }

theorem witness_StallIsLeftOnlyBySetupOrBusReset :
    (∃ t, step stalledSetup = .next t) ∧ (∃ t, step stalledReset = .next t) ∧ stalledSetup.ctl.stall = true ∧
      stalledReset.ctl.stall = true ∧ (nextOr start (step stalledSetup)).ctl.stall = false ∧
      (nextOr start (step stalledReset)).ctl.stall = false :=
  ⟨next_of (by decide +kernel), next_of (by decide +kernel), by decide +kernel⟩

/-! ### Witnesses: frames -/

theorem witness_UsbOperationsLeaveCanAlone :
    usesUsb (.setFeature 0 2 0 0x82 0) = true ∧ ∃ t, exec (.setFeature 0 2 0 0x82 0) conf = .next t :=
  ⟨rfl, next_of (by decide +kernel)⟩
theorem witness_CanOperationsLeaveUsbAlone : usesUsb .canInit = false ∧ ∃ t, exec .canInit start = .next t :=
  ⟨rfl, next_of (by decide +kernel)⟩
theorem witness_OnlyControlWritesControlState :
    (Instr.usbPut 0x41).opClass ≠ .setup ∧ Instr.usbPut 0x41 ≠ .usbPoll ∧ ∃ t, exec (.usbPut 0x41) conf = .next t :=
  ⟨by decide, by decide, next_of (by decide +kernel)⟩
theorem witness_OperationsSpareWhatTheSieOwns :
    conf.Inv ∧ Instr.usbPut 0x41 ≠ .usbPoll ∧ (∀ d r v x l, Instr.usbPut 0x41 ≠ .setConfiguration d r v x l) ∧
      (∃ t, exec (.usbPut 0x41) conf = .next t) ∧ (conf.bd (.bout 0)).own = .sie :=
  ⟨inv_of (by decide +kernel), by decide, by simp, next_of (by decide +kernel), by decide +kernel⟩
/-- The requests, each clause at a boundary of its operand. -/
theorem witness_ArmingAnOwnedBufferFaults_requests :
    ((acknowledged conf).bd .ep0in).own = .sie ∧
      (descriptors conf.cfg).strings[(3 : Byte).toNat]? = some (some (serialString #v[0x30, 0x30, 0x30, 0x30])) ∧
      endpointOf conf.cfg (lowByte 0x0082) ≠ none ∧ lowByte 0x0080 ∈ ([0x00, 0x80] : List Byte) ∧
      (127 : Half).toNat ≤ 127 ∧ lowByte 0x0100 = 0 ∧ lowByte 0x0001 = conf.cfg.configValue ∧
      (lowByte 0x0001).toNat ≤ 1 := by decide +kernel

/-- The endpoint-0 IN buffer is the SIE's, and an event is the oldest of the queue. -/
def armedAnd (ev : SieEvent) (x : Option Xfer) : State :=
  { acknowledged conf with ctl := { conf.ctl with xfer := x }, sie := { conf.sie with queue := [ev] } }

theorem witness_ArmingAnOwnedBufferFaults_poll :
    let a := armedAnd .doneEp0in (some ⟨[1, 2], 0, 2, false, false⟩)
    let b := armedAnd .doneEp0in (some ⟨[1, 2], 2, 0, false, true⟩)
    let c := armedAnd .busReset none
    let d : State := { conf with sie := { conf.sie with queue := [.doneEp0out] } }
    let e : State := { conf with sie := { conf.sie with queue := [.busReset] } }
    let f : State :=
      { armedAnd .doneEp0out none with
        bds := { (acknowledged conf).bds with ep0out := ⟨.sw, 7⟩ }, ctl := { conf.ctl with lcPending := true } }
    ((a.bd .ep0in).own = .sie ∧ a.sie.queue = .doneEp0in :: [] ∧ a.ctl.pendingAddr = none ∧
        a.ctl.xfer = some ⟨[1, 2], 0, 2, false, false⟩ ∧ b.ctl.xfer = some ⟨[1, 2], 2, 0, false, true⟩) ∧
      ((c.bd .ep0in).own = .sie ∧ c.sie.queue = .busReset :: []) ∧
      ((d.bd .ep0out).own = .sie ∧ d.sie.queue = .doneEp0out :: []) ∧
      ((e.bd .ep0in).own = .sw ∧ (e.bd .ep0out).own = .sie ∧ e.sie.queue = .busReset :: []) ∧
      ((f.bd .ep0in).own = .sie ∧ (f.bd .ep0out).own = .sw ∧ f.sie.queue = .doneEp0out :: [] ∧
        f.bds.ep0setup = false ∧ f.ctl.lcPending = true) := by decide +kernel

/-! ### Witnesses: the bulk endpoints -/

/-- Both bulk-IN buffers are the SIE's: `41 42 43 44` and `45`. -/
def bothArmed : State :=
  { conf4 with
    mem := [(0x80, 0x41), (0x81, 0x42), (0x82, 0x43), (0x83, 0x44), (0xC0, 0x45)]
    bds := { conf4.bds with bin0 := ⟨.sie, 4⟩, bin1 := ⟨.sie, 1⟩ } }

theorem witness_UsbPutEffect_dropped :
    start.Inv ∧ start.dev.config = 0 ∧ bothArmed.Inv ∧ (bothArmed.bd (.bin bothArmed.bin.active)).own = .sie :=
  ⟨inv_of (by decide +kernel), by decide +kernel, inv_of (by decide +kernel), by decide +kernel⟩
/-- The first byte, and the one that fills the buffer. -/
theorem witness_UsbPutEffect_stored :
    (conf4.Inv ∧ conf4.dev.config ≠ 0 ∧ (conf4.bd (.bin conf4.bin.active)).own = .sw ∧ conf4.bin.fill = 0) ∧
      (three.Inv ∧ three.dev.config ≠ 0 ∧ (three.bd (.bin three.bin.active)).own = .sw ∧
        three.bin.fill + 1 = three.cfg.bulkSize.val) :=
  ⟨⟨inv_of (by decide +kernel), by decide +kernel⟩, ⟨inv_of (by decide +kernel), by decide +kernel⟩⟩
theorem witness_UsbFlushEffect : (conf4.Inv ∧ conf4.bin.fill = 0) ∧ (three.Inv ∧ 0 < three.bin.fill) :=
  ⟨⟨inv_of (by decide +kernel), by decide +kernel⟩, ⟨inv_of (by decide +kernel), by decide +kernel⟩⟩

/-- One byte of the first buffer is read. -/
def lastByte : State := { received with bout := ⟨0, 1⟩ }

theorem witness_UsbGetEffect :
    (conf4.Inv ∧ conf4.outHasData = false) ∧
      (received.Inv ∧ received.dev.config ≠ 0 ∧ (received.bd (.bout received.bout.active)).own = .sw ∧
        received.bout.pos + 1 < (received.bd (.bout received.bout.active)).count) ∧
      (lastByte.Inv ∧ lastByte.dev.config ≠ 0 ∧ (lastByte.bd (.bout lastByte.bout.active)).own = .sw ∧
        lastByte.bout.pos + 1 = (lastByte.bd (.bout lastByte.bout.active)).count) :=
  ⟨⟨inv_of (by decide +kernel), by decide +kernel⟩, ⟨inv_of (by decide +kernel), by decide +kernel⟩,
    ⟨inv_of (by decide +kernel), by decide +kernel⟩⟩

/-- A full queue: a put is dropped, an IN token takes the first packet. -/
theorem witness_InQueueIsFirstInFirstOut_full :
    bothArmed.Inv ∧ bothArmed.PingPong ∧ (∃ t, exec (.usbPut 0x46) bothArmed = .next t) ∧
      (sieBulkIn bothArmed).answer = some (.data false [0x41, 0x42, 0x43, 0x44]) ∧ bothArmed.dev.halt.in_ = false ∧
      (bothArmed.bd (.bin bothArmed.sie.nextIn)).own = .sie :=
  ⟨inv_of (by decide +kernel), pingPong_of (by decide +kernel), next_of (by decide +kernel), by decide +kernel⟩
/-- A queue of unflushed bytes: a put fills the buffer, a flush arms it, and an IN token before that gets nothing. -/
theorem witness_InQueueIsFirstInFirstOut_unflushed :
    three.Inv ∧ three.PingPong ∧ (∃ t, exec (.usbPut 0x44) three = .next t) ∧ (∃ t, exec .usbFlush three = .next t) ∧
      ∀ toggle bytes, (sieBulkIn three).answer ≠ some (.data toggle bytes) :=
  ⟨inv_of (by decide +kernel), pingPong_of (by decide +kernel), next_of (by decide +kernel),
    next_of (by decide +kernel), fun _ _ => by
      rw [show (sieBulkIn three).answer = some .nak by decide +kernel]
      exact fun h => by cases h⟩
theorem witness_OutQueueIsFirstInFirstOut :
    (conf4.Inv ∧ conf4.PingPong ∧ (sieBulkOut [0x61, 0x62] conf4).answer = some .ack ∧ conf4.outHasData = false ∧
        ∃ t, exec .usbGet conf4 = .next t) ∧
      (received.Inv ∧ received.PingPong ∧ (sieBulkOut [0x61] received).answer ≠ some .ack ∧
        received.outHasData = true ∧ ∃ t, exec .usbGet received = .next t) :=
  ⟨⟨inv_of (by decide +kernel), pingPong_of (by decide +kernel), by decide +kernel, by decide +kernel,
      next_of (by decide +kernel)⟩,
    ⟨inv_of (by decide +kernel), pingPong_of (by decide +kernel), by decide +kernel, by decide +kernel,
      next_of (by decide +kernel)⟩⟩

/-- Steps that keep both queues: a put, a flush by a poll, an IN token, an OUT token and a get. -/
theorem witness_InQueueIsFirstInFirstOut_and_OutQueue_step :
    let a : State := { three with inputs := [.request [0x03, 0x44]] }
    let b : State := { three with inputs := [.request [0x01]] }
    let c : State := { bothArmed with inputs := [.token (.inToken 0 2)] }
    let d : State := { conf4 with inputs := [.token (.outToken 0 2 [0x61])] }
    let e : State := { received with inputs := [.request [0x06]] }
    ∀ s ∈ [a, b, c, d, e], s.Inv ∧ s.PingPong ∧ ∃ t, step s = .next t ∧ s.keepsQueues t := by
  have keeps : ∀ s : State, isNext (step s) = true →
      decide (s.resetWaits = false ∧ s.nextDone ≠ some (.token .busReset) ∧ .ppReset ∉ (nextOr s (step s)).pulses) = true →
      ∃ t, step s = .next t ∧ s.keepsQueues t := by
    intro s hn hk
    obtain ⟨t, ht⟩ := next_of hn
    rw [ht] at hk
    have k := of_decide_eq_true hk
    exact ⟨t, ht, k⟩
  intro a b c d e s hs
  simp only [List.mem_cons, List.not_mem_nil, or_false] at hs
  rcases hs with rfl | rfl | rfl | rfl | rfl <;>
    exact ⟨inv_of (by decide +kernel), pingPong_of (by decide +kernel), keeps _ (by decide +kernel) (by decide +kernel)⟩

/-! ### Witnesses: the poll -/

/-- A SETUP packet, a bus reset and an address wait; a status packet of the host has come while an IN packet is armed
(V-USB-17), where only the OUT buffer is needed; a transfer has ended while the SIE owns the IN buffer. -/
theorem witness_UsbPollCompletes :
    let early := sieOut0 [] (acknowledged conf)
    let ended := armedAnd .doneEp0in (some ⟨[1, 2], 2, 0, false, false⟩)
    (setupPolled.Inv ∧ setupPolled.sie.queue = .doneEp0out :: [] ∧ (setupPolled.bd .ep0in).own = .sw ∧
        (setupPolled.bd .ep0out).own = .sw ∧ setupPolled.bds.ep0setup = true) ∧
      (resetWaits.Inv ∧ resetWaits.sie.queue = .busReset :: [] ∧ (resetWaits.bd .ep0in).own = .sw ∧
        (resetWaits.bd .ep0out).own = .sw) ∧
      (addressed.Inv ∧ addressed.sie.queue = .doneEp0in :: [] ∧ addressed.ctl.pendingAddr = some 5) ∧
      (early.Inv ∧ early.sie.queue = .doneEp0out :: [] ∧ (early.bd .ep0out).own = .sw ∧ early.bds.ep0setup = false ∧
        early.ctl.lcPending = false ∧ (early.bd .ep0in).own = .sie) ∧
      (ended.Inv ∧ ended.sie.queue = .doneEp0in :: [] ∧ (ended.bd .ep0in).own = .sie ∧
        ended.ctl.xfer = some ⟨[1, 2], 2, 0, false, false⟩) :=
  ⟨⟨inv_of (by decide +kernel), by decide +kernel⟩, ⟨inv_of (by decide +kernel), by decide +kernel⟩,
    ⟨inv_of (by decide +kernel), by decide +kernel⟩, ⟨inv_of (by decide +kernel), by decide +kernel⟩,
    ⟨inv_of (by decide +kernel), by decide +kernel⟩⟩

/-- An empty packet was received in the active bulk-OUT buffer, while three bytes wait one poll below the threshold. -/
def emptyPacket : State :=
  { three with
    bds := { three.bds with bout0 := ⟨.sw, 0⟩ }
    sie := { three.sie with queue := [.doneBout 0], nextOut := 1 } }

theorem witness_UsbPollWithoutControlEvent :
    (three.Inv ∧ three.sie.queue = [] ∧ three.cfg.idleFlushPolls.val ≤ three.bin.idle + 1) ∧
      (emptyPacket.Inv ∧ emptyPacket.sie.queue = .doneBout 0 :: [] ∧
        emptyPacket.bd (.bout emptyPacket.bout.active) = ⟨.sw, 0⟩) ∧
      ({ conf4 with sie := { conf4.sie with queue := [.doneBin 0] } } : State).Inv :=
  ⟨⟨inv_of (by decide +kernel), by decide +kernel⟩, ⟨inv_of (by decide +kernel), by decide +kernel⟩,
    inv_of (by decide +kernel)⟩
/-- No poll more, and the one at which the threshold is reached. -/
theorem witness_IdleFlushComesAtTheThreshold :
    three.Inv ∧ 0 < three.bin.fill ∧ three.sie.queue = [] ∧ three.bin.idle + 0 < three.cfg.idleFlushPolls.val ∧
      three.bin.idle + 1 = three.cfg.idleFlushPolls.val :=
  ⟨inv_of (by decide +kernel), by decide +kernel⟩
theorem witness_UsbPollOnBusReset :
    resetWaits.sie.queue = .busReset :: [] ∧ (resetWaits.bd .ep0in).own = .sw ∧ (resetWaits.bd .ep0out).own = .sw := by
  decide +kernel

/-- An IN transaction of endpoint 0 has completed, with a transfer in this state. -/
def completed (x : Option Xfer) : State :=
  { conf with ctl := { conf.ctl with xfer := x }, sie := { conf.sie with queue := [.doneEp0in] } }

theorem witness_Ep0InCompletion_address :
    addressed.Inv ∧ addressed.sie.queue = .doneEp0in :: [] ∧ addressed.ctl.pendingAddr = some 5 :=
  ⟨inv_of (by decide +kernel), by decide +kernel⟩
/-- The next packet, the zero-length packet, the end and none: one state for each clause. -/
theorem witness_Ep0InCompletion_transfer :
    let a := completed (some ⟨(descriptors params).device, 8, 10, false, false⟩)
    let b := completed (some ⟨(descriptors params).device, 16, 0, false, true⟩)
    let c := completed (some ⟨(descriptors params).device, 18, 0, false, false⟩)
    let d := completed none
    (a.Inv ∧ b.Inv ∧ c.Inv ∧ d.Inv) ∧ (a.bd .ep0in).own = .sw ∧ (b.bd .ep0in).own = .sw ∧
      a.sie.queue = .doneEp0in :: [] ∧ a.ctl.pendingAddr = none ∧ d.ctl.xfer = none :=
  ⟨⟨inv_of (by decide +kernel), inv_of (by decide +kernel), inv_of (by decide +kernel), inv_of (by decide +kernel)⟩,
    by decide +kernel⟩

/-- A data stage of 7 bytes has been received. -/
def dataStage : State :=
  sieOut0 [0x80, 0x25, 0x00, 0x00, 0x00, 0x00, 0x08] { start with ctl := { start.ctl with lcPending := true } }

theorem witness_Ep0OutCompletion :
    (dataStage.sie.queue = .doneEp0out :: [] ∧ (dataStage.bd .ep0out).own = .sw ∧ dataStage.bds.ep0setup = false ∧
        dataStage.ctl.lcPending = true ∧ (dataStage.bd .ep0in).own = .sw) ∧
      ((sieOut0 [] start).sie.queue = .doneEp0out :: [] ∧ ((sieOut0 [] start).bd .ep0out).own = .sw ∧
        (sieOut0 [] start).bds.ep0setup = false ∧ (sieOut0 [] start).ctl.lcPending = false) := by decide +kernel

/-! ### Witnesses: USB control requests -/

/-- String 3 is the last there is; its second character stands at offset 4, none at offset 3. -/
theorem witness_DescriptorRequestsReply :
    start.Inv ∧ (start.bd .ep0in).own = .sw ∧
      (descriptors start.cfg).strings[(3 : Byte).toNat]? = some (some (serialString #v[0x30, 0x30, 0x30, 0x30])) ∧
      ((3 : Byte) == start.cfg.serialStrIndex && start.cfg.serialAvailable) = true ∧
      ((2 : Byte) == start.cfg.serialStrIndex && start.cfg.serialAvailable) = false ∧
      4 < firstPacket start.cfg 10 0xFF ∧ start.cfg.serialSlots[(1 : Fin 4)] = 4 ∧
      (∀ k < (1 : Fin 4), start.cfg.serialSlots[k] ≠ 4) ∧ ∀ j : Fin 4, start.cfg.serialSlots[j] ≠ 3 :=
  ⟨inv_of (by decide +kernel), by decide +kernel⟩
theorem witness_DataRequestsReply :
    conf.Inv ∧ (conf.bd .ep0in).own = .sw ∧ lowByte 0x0080 ∈ ([0x00, 0x80] : List Byte) ∧
      lowByte 0x0082 ∉ ([0x00, 0x80] : List Byte) ∧ endpointOf conf.cfg (lowByte 0x0082) = some .in_ ∧
      lowByte 0x0001 = 1 :=
  ⟨inv_of (by decide +kernel), by decide +kernel⟩
theorem witness_FeatureRequestsSetTheHalt :
    (conf.bd .ep0in).own = .sw ∧ endpointOf conf.cfg (lowByte 0x0081) = some .notify ∧
      endpointOf conf.cfg (lowByte 0x0000) = none ∧ lowByte 0x0000 ∈ ([0x00, 0x80] : List Byte) := by decide +kernel
theorem witness_SetConfigurationRestartsTheEndpoints :
    (three.bd .ep0in).own = .sw ∧ lowByte 0x0100 = 0 ∧ lowByte 0x0001 = three.cfg.configValue := by decide +kernel
theorem witness_RequestsWithoutDataAcknowledge :
    (conf.bd .ep0in).own = .sw ∧ (127 : Half).toNat ≤ 127 ∧ (7 : Half) ≠ 0 ∧ lowByte 0x0001 = 1 := by decide +kernel
/-- Each bound at its first value: string 4, address 128, interface 2, configuration 2, selector 1, endpoint 0x83. -/
theorem witness_RefusedRequestsStall :
    (∀ str, (descriptors start.cfg).strings[(4 : Byte).toNat]? ≠ some (some str)) ∧ 127 < (128 : Half).toNat ∧ 1 < (lowByte 0x0002).toNat ∧
      lowByte 0x0002 ≠ 0 ∧ lowByte 0x0002 ≠ start.cfg.configValue ∧ (1 : Half) ≠ 0 ∧ (0 : BitVec 5) ≠ 2 ∧
      endpointOf start.cfg (lowByte 0x0083) = none ∧ lowByte 0x0083 ∉ ([0x00, 0x80] : List Byte) :=
  And.intro
    (by
      rw [show (descriptors start.cfg).strings[(4 : Byte).toNat]? = none by decide +kernel]
      exact fun _ h => nomatch h)
    (by decide +kernel)
theorem witness_StalledRequestLeavesNoPartialChange :
    (Instr.setInterface 0 1 1 0 0).opClass = .setup ∧ (∃ t, exec (.setInterface 0 1 1 0 0) conf = .next t) ∧
      conf.ctl.stall = false ∧ (nextOr start (exec (.setInterface 0 1 1 0 0) conf)).ctl.stall = true :=
  ⟨rfl, next_of (by decide +kernel), by decide +kernel⟩

/-! ### Witnesses: the serial bus and CAN configuration -/

theorem witness_TransactionsAreOfTheCommandSet : ∃ t, exec .canReceive bothFull = .next t := next_of (by decide +kernel)
/-- The default CHIP, and the last address of the map. -/
theorem witness_RawOperationsOfTheClient : start.cfg.chip = mcp2515 ∧ (0x7F : Byte).toNat < 128 := ⟨rfl, by decide⟩
theorem witness_SerialCommandsComplete : start.cfg.chip = mcp2515 := rfl
/-- CANINTF in any mode, and CNF1 in configuration mode. -/
theorem witness_BitModifyChangesTheMaskedBits :
    (0x2C : Byte).toNat < 128 ∧ supportsBitModify (0x2C : Byte).toNat = true ∧
      configOnly (0x2C : Byte).toNat = false ∧ supportsBitModify (0x2A : Byte).toNat = true ∧
      configOnly (0x2A : Byte).toNat = true ∧ start.chip.inConfigMode mcp2515 = true := by decide +kernel
/-- The error interrupt enabled and not; buffer 0 full without rollover, both full with it; the pins. -/
theorem witness_FlagsAreRecordedAndReported :
    let f : CanFrame := ⟨false, false, 0x123, 2, Vector.replicate 8 0x5A⟩
    let a := (reg 0x2C 0x01 normal).chip
    let b := (reg 0x2C 0x03 (reg 0x60 0x04 normal)).chip
    ((reg 0x2B 0x20 start).chip.reg 0x2B).getLsbD 5 = true ∧ (start.chip.reg 0x2B).getLsbD 5 = false ∧
      (a.modeReceives mcp2515 = true ∧ (a.accepts0 mcp2515 f 0 && a.rxFull mcp2515 0) = true ∧
        (a.reg 0x60).getLsbD 2 = false) ∧
      (b.modeReceives mcp2515 = true ∧ (b.accepts0 mcp2515 f 0 && b.rxFull mcp2515 0) = true ∧
        (b.reg 0x60).getLsbD 2 = true ∧ b.rxFull mcp2515 1 = true) ∧
      bothFull.cfg.chip = mcp2515 ∧ bothFull.pins.rx0 = .sound ∧ bothFull.pins.rx1 = .sound ∧ bothFull.pins.err = .sound ∧
      bothFull.chip.reg 0x0C = 0x0F ∧ (start.chip.reg 0x0C).getLsbD 2 = false ∧
      ((reg 0x0C 0x1C start).chip.reg 0x0C).getLsbD 2 = true ∧
      ((reg 0x0C 0x1C start).chip.reg 0x0C).getLsbD 0 = false := by decide +kernel
theorem witness_ConfigurationWrites :
    start.cfg.chip = mcp2515 ∧ (8 : Byte).toNat < 9 ∧ 8 < (9 : Byte).toNat := ⟨rfl, by decide⟩
/-- Outside configuration mode, and in it. -/
theorem witness_ConfigurationIsTakenInItsModeOnly :
    normal.cfg.chip = mcp2515 ∧ normal.during = [] ∧ normal.chip.inConfigMode mcp2515 = false ∧
      (8 : Byte).toNat ≤ 8 ∧ start.cfg.chip = mcp2515 ∧ start.during = [] ∧
      start.chip.inConfigMode mcp2515 = true ∧ (8 : Byte).toNat < 9 := by decide +kernel
theorem witness_ErrorFlagsAreDecoded : start.cfg.chip = mcp2515 := rfl
theorem witness_InitialisationTransactions :
    twoBusy.cfg.chip = mcp2515 ∧ twoBusy.cfg.selfTest = defaultSelfTest := ⟨rfl, rfl⟩
/-- Sound wires, and each one stuck in turn. -/
theorem witness_SelfTestTellsAStuckWire :
    start.cfg.chip = mcp2515 ∧ start.cfg.selfTest = defaultSelfTest ∧ start.during = [] ∧
      (start.pins.rx0 = .sound ∧ start.pins.rx1 = .sound ∧ start.pins.err = .sound) ∧
      ({ start with pins := { start.pins with rx0 := .stuck true } } : State).pins.rx0 = .stuck true ∧
      ({ start with pins := { start.pins with rx1 := .stuck false } } : State).pins.rx1 = .stuck false ∧
      ({ start with pins := { start.pins with err := .stuck true } } : State).pins.err = .stuck true :=
  ⟨rfl, rfl, rfl, ⟨rfl, rfl, rfl⟩, rfl, rfl, rfl⟩
theorem witness_ChipAfterInitialisation :
    twoBusy.cfg.chip = mcp2515 ∧ twoBusy.cfg.selfTest = defaultSelfTest ∧ twoBusy.during = [] ∧ start.chip.Closed :=
  ⟨rfl, rfl, rfl, by decide +kernel, by decide +kernel, rfl⟩

/-! ### Witnesses: CAN transmission and reception -/

/-- P2 after step 6: slots 2, 1 and 0 hold frames in that order, in normal mode. -/
def threeSent : State :=
  { reg 0x30 0x0A twoBusy with can := { twoBusy.can with slotPrio := #v[2, 3, 3] } }

/-- The slots that a status names busy, as the statements say it. -/
def busyOf (s : State) : List (Fin 3) :=
  ([0, 1, 2] : List (Fin 3)).filter fun x => ((letOutside s).chip.status mcp2515).getLsbD (2 + 2 * x.val)

/-- A dlc of 16; 15 with all slots busy; 15 with a free slot. -/
theorem witness_CanSendEffect :
    threeSent.cfg.chip = mcp2515 ∧ 15 < (16 : Byte).toNat ∧ (15 : Byte).toNat ≤ 15 ∧ busyOf threeSent = [0, 1, 2] ∧
      busyOf twoBusy ≠ [0, 1, 2] := by decide +kernel
/-- One busy slot; two, the older one above the newer and below it; the choice with two. -/
theorem witness_ChoiceFollowsTheTableAndKeepsTheAge :
    ((1 : Fin 3) ≠ 2 ∧ (0 : Fin 3) ≠ 1 ∧ (0 : Fin 3) ≠ 2 ∧
        4 * (#v[0, 3, 2] : Vector (Fin 4) 3)[(2 : Fin 3)].val + (2 : Fin 3).val <
          4 * (#v[0, 3, 2] : Vector (Fin 4) 3)[(1 : Fin 3)].val + (1 : Fin 3).val) ∧
      ((2 : Fin 3) ≠ 1 ∧ (0 : Fin 3) ≠ 2 ∧ (0 : Fin 3) ≠ 1 ∧
        4 * (#v[0, 3, 3] : Vector (Fin 4) 3)[(1 : Fin 3)].val + (1 : Fin 3).val <
          4 * (#v[0, 3, 3] : Vector (Fin 4) 3)[(2 : Fin 3)].val + (2 : Fin 3).val) ∧
      ([1, 2] : List (Fin 3)).Sublist [0, 1, 2] ∧
      chooseSlot [1, 2] #v[0, 3, 2] = some ⟨0, 1, [(1, 3), (2, 2)]⟩ := by decide

theorem threeSent_order : threeSent.SendsInOrder [2, 1, 0] :=
  ⟨by decide, by decide +kernel, by decide +kernel, by decide +kernel, by intro f h; cases h⟩

/-- The oldest frame is on the bus. -/
def sending : State := outsideAct (.chip .start) threeSent

theorem sending_onBus : sending.chip.onBus = some ⟨2, threeSent.chip.slotBytes mcp2515 2⟩ := by decide +kernel
theorem sending_order : sending.SendsInOrder [2, 1, 0] :=
  ⟨by decide, by decide +kernel, by decide +kernel, by decide +kernel, by
    intro f h
    rw [sending_onBus] at h
    cases h
    decide⟩

/-- A frame to send, as bytes of a request. -/
def sendRequest : List Byte := 0x30 :: List.replicate 14 0x00

theorem sendRequest_spares (m : ChipTable) (bytes : List Byte) (i : Instr)
    (h : some (Input.request sendRequest) = some (.request bytes)) (hd : decodeClient bytes = .ok i) :
    ¬ WritesTransmitControl m i := by
  cases h
  rw [show decodeClient sendRequest = .ok (.canSend 0 0 0 #v[0, 0, 0, 0, 0, 0, 0, 0]) by decide] at hd
  cases hd
  rintro ⟨a, -, ⟨d, hi⟩ | ⟨k, d, hi⟩⟩ <;> cases hi

/-- A frame is accepted after the oldest has been sent; one is refused; a RESET; the chip sends between requests. -/
theorem witness_StepKeepsTheSendOrder :
    let a : State := { sending with during := [[.chip .complete]], inputs := [.request sendRequest] }
    let b : State := { threeSent with inputs := [.request sendRequest] }
    let c : State := { threeSent with inputs := [.request [0x10]] }
    let d : State := { sending with inputs := [.outside (.chip .complete)] }
    (a.cfg.chip = mcp2515 ∧ a.cfg.selfTest = defaultSelfTest ∧ a.bench = none ∧ a.SendsInOrder [2, 1, 0] ∧
        (∀ bytes i, a.nextDone = some (.request bytes) → decodeClient bytes = .ok i →
          ¬ WritesTransmitControl mcp2515 i) ∧
        (∃ t, step a = .next t) ∧ (nextOr a (step a)).response = some ⟨.ok, []⟩) ∧
      (b.SendsInOrder [2, 1, 0] ∧ (∃ t, step b = .next t) ∧ (nextOr b (step b)).response = some ⟨.no, []⟩) ∧
      (c.SendsInOrder [2, 1, 0] ∧ (∃ t, step c = .next t) ∧ c.nextDone = some (.request [0x10])) ∧
      (d.SendsInOrder [2, 1, 0] ∧ (∃ t, step d = .next t) ∧ (nextOr d (step d)).chip.sentSlots = [2] ∧
        ∀ bytes, d.nextDone ≠ some (.request bytes)) := by
  intro a b c d
  have on (s : State) (h : s.chip = sending.chip) (hc : s.can = sending.can) (hg : s.cfg = sending.cfg) :
      s.SendsInOrder [2, 1, 0] := by
    refine ⟨by decide, ?_, ?_, ?_, ?_⟩ <;> simp only [h, hc, hg]
    exacts [sending_order.pending, sending_order.recorded, sending_order.ranked, sending_order.sending]
  have on' (s : State) (h : s.chip = threeSent.chip) (hc : s.can = threeSent.can) (hg : s.cfg = threeSent.cfg) :
      s.SendsInOrder [2, 1, 0] := by
    refine ⟨by decide, ?_, ?_, ?_, ?_⟩ <;> simp only [h, hc, hg]
    exacts [threeSent_order.pending, threeSent_order.recorded, threeSent_order.ranked, threeSent_order.sending]
  exact ⟨⟨rfl, rfl, rfl, on a rfl rfl rfl, sendRequest_spares _, next_of (by decide +kernel), by decide +kernel⟩,
    ⟨on' b rfl rfl rfl, next_of (by decide +kernel), by decide +kernel⟩,
    ⟨on' c rfl rfl rfl, next_of (by decide +kernel), rfl⟩,
    ⟨on d rfl rfl rfl, next_of (by decide +kernel), by decide +kernel, by intro bytes h; cases h⟩⟩
/-- The bus is free; the oldest frame is on it. -/
theorem witness_ChipSendsTheOldestFrame :
    (threeSent.cfg.chip = mcp2515 ∧ threeSent.SendsInOrder (2 :: [1, 0]) ∧ threeSent.chip.onBus = none ∧
        threeSent.chip.modeSends mcp2515 = true) ∧
      (sending.SendsInOrder (2 :: [1, 0]) ∧ sending.during = [] ∧
        sending.chip.onBus = some ⟨2, threeSent.chip.slotBytes mcp2515 2⟩) :=
  ⟨⟨rfl, threeSent_order, rfl, by decide +kernel⟩, sending_order, rfl, sending_onBus⟩
theorem witness_AcceptedFrameStandsInTheSlot :
    normal.cfg.chip = mcp2515 ∧ normal.during = [] ∧
      (∃ t, exec (.canSend 1 0x12345678 8 (Vector.replicate 8 1)) normal = .next t) ∧
      (nextOr start (exec (.canSend 1 0x12345678 8 (Vector.replicate 8 1)) normal)).response = some ⟨.ok, []⟩ :=
  ⟨rfl, rfl, next_of (by decide +kernel), by decide +kernel⟩
/-- No pin, both pins with either memory, and each pin alone. -/
theorem witness_CanReceiveEffect :
    let a := reg 0x2C 0x01 bothFull
    let b := reg 0x2C 0x02 bothFull
    (letOutside start).pinNow .rx0 = false ∧ (letOutside (letOutside start)).pinNow .rx1 = false ∧
      (letOutside bothFull).pinNow .rx0 = true ∧ (letOutside (letOutside bothFull)).pinNow .rx1 = true ∧
      (0 : Fin 2) = 1 - bothFull.can.rxLast ∧
      (letOutside a).pinNow .rx0 = true ∧ (letOutside (letOutside a)).pinNow .rx1 = false ∧
      (letOutside b).pinNow .rx0 = false ∧ (letOutside (letOutside b)).pinNow .rx1 = true := by decide +kernel
theorem witness_CanReceiveEffect_chip : bothFull.cfg.chip = mcp2515 := rfl

/-- In normal mode with rollover, every standard frame is accepted by both buffers. -/
def listening : State := reg 0x60 0x04 normal

/-- A frame for each clause: both buffers full; buffer 0 free, and full with rollover; only buffer 1 accepts; neither
does. -/
theorem witness_ArrivingFramesAreSortedIntoFreeBuffers_chip :
    let f : CanFrame := ⟨false, false, 0x123, 2, Vector.replicate 8 0x5A⟩
    let b := (reg 0x20 0xFF listening).chip
    let n := (reg 0x24 0xFF (reg 0x20 0xFF listening)).chip
    (bothFull.chip.rxFull mcp2515 0 = true ∧ bothFull.chip.rxFull mcp2515 1 = true) ∧
      (listening.chip.modeReceives mcp2515 = true ∧ listening.chip.accepts0 mcp2515 f 0 = true ∧
        listening.chip.rxFull mcp2515 0 = false) ∧
      (let c := (reg 0x2C 0x01 listening).chip
       c.modeReceives mcp2515 = true ∧ c.accepts0 mcp2515 f 0 = true ∧ c.rxFull mcp2515 0 = true ∧
         (c.reg 0x60).getLsbD 2 = true ∧ c.rxFull mcp2515 1 = false) ∧
      (b.modeReceives mcp2515 = true ∧ b.accepts0 mcp2515 f 0 = false ∧ b.accepts1 mcp2515 f 0 = true ∧
        b.rxFull mcp2515 1 = false) ∧
      (n.modeReceives mcp2515 = true ∧ n.accepts0 mcp2515 f 0 = false ∧ n.accepts1 mcp2515 f 0 = false) := by
  decide +kernel
theorem witness_ArrivingFramesAreSortedIntoFreeBuffers_filter :
    let t := nextOr start (exec (.canSetMask 0x00 0x1F 0xFF 0xFF) start)
    start.cfg.chip = mcp2515 ∧ start.during = [] ∧ start.chip.inConfigMode mcp2515 = true ∧
      (0x1F : Byte).extractLsb' 0 2 = 3 ∧ (∃ t, exec (.canSetMask 0x00 0x1F 0xFF 0xFF) start = .next t) ∧
      (∃ u, exec (.canSetCode 0x24 0x60 0x00 0x00) t = .next u) ∧
      (0x123 : BitVec 29).extractLsb' 0 11 = (0x123 <<< 18 : BitVec 29).extractLsb' 18 11 :=
  ⟨rfl, rfl, by decide +kernel, by decide, next_of (by decide +kernel), next_of (by decide +kernel), by decide⟩

/-! ### Witnesses: the SIE -/

/-- A SETUP beside a buffer of the block's that is not the endpoint-0 OUT buffer, and another token beside that one. -/
theorem witness_SieSparesWhatTheBlockOwns :
    (conf.Inv ∧ conf.Ep0InStep ∧ (conf.bd (.bin 0)).own = .sw ∧ Buf.bin 0 ≠ .ep0out) ∧
      (setupPolled.Inv ∧ setupPolled.Ep0InStep ∧ (setupPolled.bd .ep0out).own = .sw ∧
        ∀ p, Token.busReset ≠ .setup setupPolled.dev.addr p) :=
  ⟨⟨inv_of (by decide +kernel), ep0_of (by decide +kernel), by decide +kernel⟩,
    ⟨inv_of (by decide +kernel), ep0_of (by decide +kernel), by decide +kernel, by simp⟩⟩

/-- A SETUP with the OUT buffer free, beside a bulk event; over an unhandled OUT packet, and over an earlier SETUP; while
a bus reset waits. What makes endpoint 0 answer NAK: a SETUP not yet handled, a bus reset. -/
theorem witness_SieAnswersTokens_setup :
    let twice := sieSettle (sieToken (.setup 0 (Vector.replicate 8 0)) (sieToken (.outToken 0 0 []) conf))
    (received.Inv ∧ received.Ep0InStep ∧ (received.bd .ep0out).own = .sie) ∧
      (twice.Inv ∧ twice.Ep0InStep ∧ twice.sie.queue = [.doneEp0out, .doneEp0out] ∧ twice.bds.ep0setup = true) ∧
      (resetWaits.Inv ∧ resetWaits.Ep0InStep ∧ .busReset ∈ resetWaits.sie.queue) ∧
      (setupPolled.Inv ∧ setupPolled.Ep0InStep ∧ setupPolled.bds.ep0setup = true) :=
  ⟨⟨inv_of (by decide +kernel), ep0_of (by decide +kernel), by decide +kernel⟩,
    ⟨inv_of (by decide +kernel), ep0_of (by decide +kernel), by decide +kernel⟩,
    ⟨inv_of (by decide +kernel), ep0_of (by decide +kernel), by decide +kernel⟩,
    ⟨inv_of (by decide +kernel), ep0_of (by decide +kernel), by decide +kernel⟩⟩
/-- The protocol stall; an armed IN packet and a free OUT buffer, a packet of the full size among those it takes; neither
buffer the SIE's. -/
theorem witness_SieAnswersTokens_endpoint_zero :
    let s : State := { conf with ctl := idleCtl true }
    let w := sieToken (.outToken 0 0 []) conf
    (s.Inv ∧ s.Ep0InStep ∧ s.ctl.stall = true ∧ (s.bd .ep0out).own = .sie) ∧
      ((acknowledged conf).Inv ∧ (acknowledged conf).Ep0InStep ∧ (acknowledged conf).ctl.stall = false ∧
        ((acknowledged conf).bd .ep0in).own = .sie ∧ ((acknowledged conf).bd .ep0out).own = .sie ∧
        (List.replicate 8 (0x00 : Byte)).length ≤ (acknowledged conf).cfg.ep0Size.bytes) ∧
      (w.Inv ∧ w.Ep0InStep ∧ w.ctl.stall = false ∧ (w.bd .ep0in).own = .sw ∧ (w.bd .ep0out).own = .sw) ∧
      (5 : BitVec 7) ≠ s.dev.addr :=
  ⟨⟨inv_of (by decide +kernel), ep0_of (by decide +kernel), by decide +kernel⟩,
    ⟨inv_of (by decide +kernel), ep0_of (by decide +kernel), by decide +kernel⟩,
    ⟨inv_of (by decide +kernel), ep0_of (by decide +kernel), by decide +kernel⟩, by decide +kernel⟩
/-- Bulk endpoints armed, not armed and halted, and the notification endpoint. -/
theorem witness_SieAnswersTokens_bulk :
    let h : State := { conf4 with dev := { conf4.dev with halt := ⟨true, true, true⟩ } }
    (h.Inv ∧ h.Ep0InStep ∧ h.dev.halt.in_ = true ∧ h.dev.halt.out = true) ∧
      (bothArmed.Inv ∧ bothArmed.Ep0InStep ∧ bothArmed.dev.halt.in_ = false ∧
        (bothArmed.bd (.bin bothArmed.sie.nextIn)).own = .sie ∧ (0x80 : Byte) ||| (2 : BitVec 4).zeroExtend 8 = bothArmed.cfg.epIn) ∧
      (conf4.Inv ∧ conf4.Ep0InStep ∧ conf4.dev.halt.out = false ∧ (conf4.bd (.bin conf4.sie.nextIn)).own = .sw ∧
        (conf4.bd (.bout conf4.sie.nextOut)).own = .sie ∧ (2 : BitVec 4).zeroExtend 8 = conf4.cfg.epOut ∧
        (List.replicate 4 (0x00 : Byte)).length ≤ conf4.cfg.bulkSize.val) ∧
      (received.Ep0InStep ∧ (received.bd (.bout received.sie.nextOut)).own = .sw) ∧
      ((0x80 : Byte) ||| (1 : BitVec 4).zeroExtend 8 = conf4.cfg.epNotify ∧ conf4.cfg.epNotify ≠ conf4.cfg.epIn) :=
  ⟨⟨inv_of (by decide +kernel), ep0_of (by decide +kernel), by decide +kernel⟩,
    ⟨inv_of (by decide +kernel), ep0_of (by decide +kernel), by decide +kernel⟩,
    ⟨inv_of (by decide +kernel), ep0_of (by decide +kernel), by decide +kernel⟩,
    ⟨ep0_of (by decide +kernel), by decide +kernel⟩, by decide +kernel⟩

end Sys2Proof.Tests
end

section
/-! PROOF. What an operation over the serial bus may change: the CAN driver, the lines of the bus, the chip and its
pins, and what the request puts out. -/

namespace Sys2Proof.Machine

/-! ### The operations over the serial bus -/

/-- `t` comes from `s` by work on the serial bus: everything of the USB function and the clock is as it was, and the
lines of the bus are as they were or idle (42_serial_bus.md R361). -/
structure BusOnly (s t : State) : Prop where
  cfg : t.cfg = s.cfg
  dev : t.dev = s.dev
  ctl : t.ctl = s.ctl
  bds : t.bds = s.bds
  mem : t.mem = s.mem
  bin : t.bin = s.bin
  bout : t.bout = s.bout
  sie : t.sie = s.sie
  clock : t.clock = s.clock
  inputs : t.inputs = s.inputs
  bench : t.bench = s.bench
  pulses : t.pulses = s.pulses
  answer : t.answer = s.answer
  serial : t.serial = s.serial ∨ t.serial = ⟨true, s.cfg.spiCpol⟩

theorem BusOnly.refl (s : State) : BusOnly s s :=
  ⟨rfl, rfl, rfl, rfl, rfl, rfl, rfl, rfl, rfl, rfl, rfl, rfl, rfl, .inl rfl⟩

theorem BusOnly.trans {s t u : State} (h : BusOnly s t) (k : BusOnly t u) : BusOnly s u where
  cfg := k.cfg.trans h.cfg
  dev := k.dev.trans h.dev
  ctl := k.ctl.trans h.ctl
  bds := k.bds.trans h.bds
  mem := k.mem.trans h.mem
  bin := k.bin.trans h.bin
  bout := k.bout.trans h.bout
  sie := k.sie.trans h.sie
  clock := k.clock.trans h.clock
  inputs := k.inputs.trans h.inputs
  bench := k.bench.trans h.bench
  pulses := k.pulses.trans h.pulses
  answer := k.answer.trans h.answer
  serial := by
    rcases k.serial with hk | hk
    · rw [hk]; exact h.serial
    · rw [hk, h.cfg]; exact .inr rfl

theorem BusOnly.letOutside (s : State) : BusOnly s (letOutside s) := by constructor <;> simp

/-- Neither the response, the CAN driver's record nor the count of free bytes is the USB function's. -/
theorem BusOnly.updates (s : State) (can : Can) (r : Option Response) (n : Nat) :
    BusOnly s { s with can := can, response := r, draws := n } :=
  ⟨rfl, rfl, rfl, rfl, rfl, rfl, rfl, rfl, rfl, rfl, rfl, rfl, rfl, .inl rfl⟩

theorem BusOnly.exchange (s : State) (mosi reply : List Byte) (c : Chip) : BusOnly s (s.exchange mosi reply c) :=
  ⟨rfl, rfl, rfl, rfl, rfl, rfl, rfl, rfl, rfl, rfl, rfl, rfl, rfl, .inr rfl⟩

/-- A whole transaction: what happens outside, the free bytes drawn, and the exchange. -/
theorem BusOnly.transaction (s : State) (n : Nat) (mosi reply : List Byte) (c : Chip) :
    BusOnly s (((Machine.letOutside s).draw n).exchange mosi reply c) :=
  (BusOnly.letOutside s).trans ((BusOnly.updates _ _ _ _).trans (BusOnly.exchange _ _ _ _))

theorem BusOnly.txnReset (s : State) : BusOnly s (txnReset s) := .transaction s 128 _ _ _
theorem BusOnly.txnRead (a : Byte) (s : State) : BusOnly s (txnRead a s).2 := .transaction s 1 _ _ _
theorem BusOnly.txnWrite (a : Byte) (ds : List Byte) (s : State) : BusOnly s (txnWrite a ds s) :=
  .transaction s 0 _ _ _
theorem BusOnly.txnBitModify (a k d : Byte) (s : State) : BusOnly s (txnBitModify a k d s) := .transaction s 0 _ _ _
theorem BusOnly.txnReadStatus (s : State) : BusOnly s (txnReadStatus s).2 := .transaction s 0 _ _ _
theorem BusOnly.txnLoadTx (x : Fin 3) (ds : List Byte) (s : State) : BusOnly s (txnLoadTx x ds s) :=
  .transaction s 0 _ _ _
theorem BusOnly.txnReadRx (b : Fin 2) (s : State) : BusOnly s (txnReadRx b s).2 := .transaction s 0 _ _ _

theorem BusOnly.timingWrites (c1 c2 c3 : Byte) (s : State) : BusOnly s (timingWrites c1 c2 c3 s) :=
  (txnWrite _ _ _).trans ((txnWrite _ _ _).trans (txnWrite _ _ _))

theorem BusOnly.maskWrites (m0 m1 m2 m3 : Byte) (s : State) : BusOnly s (maskWrites m0 m1 m2 m3 s) :=
  (txnWrite _ _ _).trans (txnWrite _ _ _)

theorem BusOnly.codeWrites (c0 c1 c2 c3 : Byte) (s : State) : BusOnly s (codeWrites c0 c1 c2 c3 s) :=
  (txnWrite _ _ _).trans <| (txnWrite _ _ _).trans <| (txnWrite _ _ _).trans <| (txnWrite _ _ _).trans <|
    (txnWrite _ _ _).trans (txnWrite _ _ _)

theorem BusOnly.initWrites (s : State) : BusOnly s (initWrites s) :=
  (txnReset s).trans <| (maskWrites _ _ _ _ _).trans <| (codeWrites _ _ _ _ _).trans <|
    (txnWrite _ _ _).trans (txnWrite _ _ _)

theorem BusOnly.testTxn (t : TestTxn) (s : State) : BusOnly s (testTxn t s) := by
  cases t with
  | reset => exact .txnReset s
  | read a => exact .txnRead a s
  | write a ds => exact .txnWrite a ds s
  | bitModify a k d => exact .txnBitModify a k d s
  | readStatus => exact .txnReadStatus s
  | loadTx x ds => exact .txnLoadTx x ds s
  | readRx b => exact .txnReadRx b s

theorem BusOnly.testTxns : ∀ (ts : List TestTxn) (s : State), BusOnly s (testTxns ts s)
  | [], s => .refl s
  | t :: ts, s => (testTxn t s).trans (testTxns ts _)

theorem BusOnly.testStage (g : SelfTestStage) (s : State) : BusOnly s (testStage g s).2 :=
  (testTxns g.txns s).trans <| (letOutside _).trans <| (letOutside _).trans (letOutside _)

theorem BusOnly.testStages : ∀ (gs : List SelfTestStage) (s : State), BusOnly s (testStages gs s).2
  | [], s => .refl s
  | g :: gs, s => (testStage g s).trans (testStages gs _)

theorem BusOnly.promoteTxns : ∀ (ps : List (Fin 3 × Fin 4)) (s : State), BusOnly s (promoteTxns ps s)
  | [], s => .refl s
  | (_, _) :: ps, s => (txnBitModify _ _ _ s).trans (promoteTxns ps _)

theorem BusOnly.sendTxns (ch : TxChoice) (load : List Byte) (s : State) : BusOnly s (sendTxns ch load s) :=
  (promoteTxns _ s).trans <| (txnLoadTx _ _ _).trans (txnWrite _ _ _)

/-- The response to a request is the only thing that it changes. -/
theorem BusOnly.respond (st : Status) (r : List Byte) (s : State) : BusOnly s (respond st r s) := .updates s _ _ _

theorem BusOnly.thenRespond {s u : State} (h : BusOnly s u) (st : Status) (r : List Byte) :
    BusOnly s (Machine.respond st r u) := h.trans (.respond st r u)

theorem execCanSetPreset_busOnly {k : Byte} {s t : State} (h : execCanSetPreset k s = .next t) : BusOnly s t := by
  unfold execCanSetPreset at h
  split at h
  · cases h; exact (BusOnly.timingWrites _ _ _ s).thenRespond _ _
  · cases h; exact .respond _ _ s

theorem execCanInit_busOnly {s t : State} (h : execCanInit s = .next t) : BusOnly s t := by
  cases h
  exact (((BusOnly.initWrites s).trans (.testStages _ _)).trans ((BusOnly.testTxns _ _).trans
    (.updates _ _ _ _))).thenRespond _ _

theorem execCanSend_busOnly {flags : Byte} {id : BitVec 32} {dlc : Byte} {data : Vector Byte 8} {s t : State}
    (h : execCanSend flags id dlc data s = .next t) : BusOnly s t := by
  unfold execCanSend at h
  split at h
  · cases h; exact .respond _ _ s
  · simp only at h
    split at h
    · cases h; exact (BusOnly.txnReadStatus s).thenRespond _ _
    · cases h
      exact ((BusOnly.txnReadStatus s).trans ((BusOnly.sendTxns _ _ _).trans (.updates _ _ _ _))).thenRespond _ _

theorem execCanReceive_busOnly {s t : State} (h : execCanReceive s = .next t) : BusOnly s t := by
  unfold execCanReceive at h
  simp only at h
  have hp : BusOnly s (samplePin .rx1 (samplePin .rx0 s).2).2 := (BusOnly.letOutside s).trans (.letOutside _)
  split at h
  · cases h; exact hp.thenRespond _ _
  · cases h
    exact (hp.trans ((BusOnly.updates _ _ _ _).trans (.txnReadRx _ _))).thenRespond _ _

/-- An operation that does not use the USB function works on the serial bus only. -/
theorem exec_busOnly {i : Instr} {s t : State} (hi : usesUsb i = false) (h : exec i s = .next t) : BusOnly s t := by
  cases i with
  | canReset => cases h; exact (BusOnly.txnReset s).thenRespond _ _
  | canReadReg a => cases h; exact (BusOnly.txnRead a s).thenRespond _ _
  | canWriteReg a d => cases h; exact (BusOnly.txnWrite a [d] s).thenRespond _ _
  | canBitModify a m d => cases h; exact (BusOnly.txnBitModify a m d s).thenRespond _ _
  | canReadStatus => cases h; exact (BusOnly.txnReadStatus s).thenRespond _ _
  | canInit => exact execCanInit_busOnly h
  | canSetTiming c1 c2 c3 => cases h; exact (BusOnly.timingWrites c1 c2 c3 s).thenRespond _ _
  | canSetPreset k => exact execCanSetPreset_busOnly h
  | canSetMask m0 m1 m2 m3 => cases h; exact (BusOnly.maskWrites m0 m1 m2 m3 s).thenRespond _ _
  | canSetCode c0 c1 c2 c3 => cases h; exact (BusOnly.codeWrites c0 c1 c2 c3 s).thenRespond _ _
  | canReadErrflags => cases h; exact (BusOnly.txnRead _ s).thenRespond _ _
  | canSend flags id dlc data => exact execCanSend_busOnly h
  | canReceive => exact execCanReceive_busOnly h
  | spiReset => cases h; exact .txnReset s
  | spiRead a => cases h; exact .txnRead a s
  | spiWrite a ds => cases h; exact .txnWrite a ds s
  | spiBitModify a m d => cases h; exact .txnBitModify a m d s
  | spiReadStatus => cases h; exact .txnReadStatus s
  | spiLoadTx x ds => cases h; exact .txnLoadTx x ds s
  | spiReadRx b => cases h; exact .txnReadRx b s
  | _ => cases hi

end Sys2Proof.Machine
end

section
/-! PROOF. What an operation of the USB function can do: each of the bulk manager's acts, each event that a poll takes,
and each operation by its class. -/

namespace Sys2Proof.Machine

/-! ### The bulk manager -/

/-- The state with the active bulk-IN buffer handed to the SIE and the other one active (41_usb_bulk.md R303). -/
def handedOver (s : State) : State :=
  { s.setBd (.bin s.bin.active) ⟨.sie, s.bin.fill⟩ with bin := ⟨1 - s.bin.active, 0, 0⟩ }

/-- What one act of the bulk manager can do to the state (41_usb_bulk.md R301 to R304, R310 to R312). -/
inductive BulkAct (s : State) : State → Prop where
  | rests : BulkAct s s
  | draws (n : Nat) : BulkAct s (s.draw n)
  | counts (i : Nat) (hi : i < s.cfg.idleFlushPolls.val) (h0 : s.bin.fill = 0 → i = 0) :
    BulkAct s { s with bin := { s.bin with idle := i } }
  | appends (b : Byte) (hc : s.dev.config ≠ 0) (ho : (s.bd (.bin s.bin.active)).own = .sw)
    (hf : s.bin.fill + 1 < s.cfg.bulkSize.val) : BulkAct s (appended b s)
  | fills (b : Byte) (hc : s.dev.config ≠ 0) (ho : (s.bd (.bin s.bin.active)).own = .sw)
    (hf : s.bin.fill + 1 = s.cfg.bulkSize.val) : BulkAct s (handedOver (appended b s))
  | flushes (hf : 0 < s.bin.fill) (ho : (s.bd (.bin s.bin.active)).own = .sw) : BulkAct s (handedOver s)
  | takes (ho : (s.bd (.bout s.bout.active)).own = .sw)
    (hp : s.bout.pos + 1 < (s.bd (.bout s.bout.active)).count) (hc : s.dev.config ≠ 0) :
    BulkAct s { s with bout := ⟨s.bout.active, s.bout.pos + 1⟩ }
  | passes (hc : s.dev.config ≠ 0) (ho : (s.bd (.bout s.bout.active)).own = .sw) : BulkAct s (passedOn s)

/-- Restarting the count of idle polls is an act of the bulk manager. -/
theorem BulkAct.restarts (s : State) : BulkAct s { s with bin := { s.bin with idle := 0 } } :=
  .counts 0 s.cfg.idleFlushPolls.property fun _ => rfl

theorem flush_act {s t : State} (h : flush s = .next t) : BulkAct s t := by
  rcases flush_eq_next.mp h with ⟨-, rfl⟩ | ⟨hf, ho, rfl⟩
  · exact .restarts s
  · exact .flushes hf ho

theorem putByte_act {b : Byte} {s t : State} (hr : s.inReady = true) (h : putByte b s = .next t) : BulkAct s t := by
  obtain ⟨hc, -⟩ := State.inReady_eq_true.mp hr
  obtain ⟨ho, hlt, rfl⟩ := putByte_eq_next.mp h
  split
  · next hf => exact .fills b hc ho hf
  · next hf => exact .appends b hc ho (by omega)

theorem getByte_act {s t : State} (hd : s.outHasData = true) (h : getByte s = .next t) :
    ∃ st r u, BulkAct s u ∧ t = respond st r u := by
  obtain ⟨hc, -, hp⟩ := State.outHasData_eq_true.mp hd
  obtain ⟨ho, -, rfl⟩ := getByte_eq_next.mp h
  refine ⟨_, _, _, ?_, rfl⟩
  split
  · exact .passes hc ho
  · exact .takes ho (by omega) hc

theorem bulkOutZeroLength_act {s t : State} (h : bulkOutZeroLength s = .next t) : BulkAct s t := by
  rw [bulkOutZeroLength_eq_next.mp h]
  split
  · next hz => exact .passes (by simpa [State.configured] using hz.1) hz.2.1
  · exact .rests

theorem idleStep_act {s t : State} (h : idleStep s = .next t) : BulkAct s t := by
  rcases idleStep_eq_next.mp h with ⟨-, rfl⟩ | ⟨hf, hi, rfl⟩ | ⟨hf, -, ho, rfl⟩
  · exact .restarts s
  · exact .counts _ hi (by omega)
  · exact .flushes hf ho

/-- A bulk operation of the client does one act of the bulk manager and responds. -/
theorem exec_act {i : Instr} {s t : State} (hu : usesUsb i = true) (hs : i.opClass ≠ .setup) (hp : i ≠ .usbPoll)
    (h : exec i s = .next t) : ∃ st r u, BulkAct s u ∧ t = respond st r u := by
  cases i with
  | usbPoll => exact absurd rfl hp
  | usbReady => cases h; exact ⟨_, _, _, .rests, rfl⟩
  | usbPut b =>
    change execUsbPut b s = _ at h
    unfold execUsbPut at h
    split at h
    · next hr =>
      obtain ⟨u, hu, ht⟩ := andThen_eq_next.mp h
      cases ht
      exact ⟨_, _, u, putByte_act hr hu, rfl⟩
    · cases h; exact ⟨_, _, _, .rests, rfl⟩
  | usbFlush =>
    obtain ⟨u, hu, ht⟩ := andThen_eq_next.mp (show andThen (flush s) _ = _ from h)
    cases ht
    exact ⟨_, _, u, flush_act hu, rfl⟩
  | usbHasData => cases h; exact ⟨_, _, _, .rests, rfl⟩
  | usbGet =>
    change execUsbGet s = _ at h
    unfold execUsbGet at h
    split at h
    · next hd => exact getByte_act hd h
    · cases h; exact ⟨_, _, _, .draws 1, rfl⟩
  | _ => simp [usesUsb, Instr.opClass] at hu hs

/-! ### Control requests and events -/

/-- A USB control request does what the request rules can do. -/
theorem exec_setupOutcome {i : Instr} {s t : State} (hi : i.opClass = .setup) (h : exec i s = .next t) :
    SetupOutcome s t :=
  dispatchSetup_outcome ((dispatchSetup_eq_exec hi s).trans h)

/-- The state with endpoint 0 OUT armed again (40_usb_control.md R203). -/
def rearmed (s : State) : State :=
  { s with bds := { s.bds with ep0setup := false, ep0out := ⟨.sie, s.cfg.ep0Size.bytes⟩ } }

/-- What the handling of an event can do to the state from which the event has been taken. -/
inductive EventOutcome (s : State) : SieEvent → State → Prop where
  | nothing (ev : SieEvent) (h : ev ≠ .busReset) : EventOutcome s ev s
  | resets : EventOutcome s .busReset (bulkTakeBack (busResetTaken s))
  | setup (hs : s.bds.ep0setup = true) (u : State) (hu : SetupOutcome (leaveStall s) u) :
    EventOutcome s .doneEp0out (rearmed u)
  | lineCoding (hl : s.ctl.lcPending = true) (lc : Vector Byte 7) :
    EventOutcome s .doneEp0out (rearmed (({ s with
      dev := { s.dev with lineCoding := lc }, ctl := { s.ctl with lcPending := false } } : State).setBd
        .ep0in ⟨.sie, 0⟩))
  | status (hl : s.ctl.lcPending = false) :
    EventOutcome s .doneEp0out (rearmed { s with ctl := { s.ctl with xfer := none } })
  | address (a : BitVec 7) (ha : s.ctl.pendingAddr = some a) :
    EventOutcome s .doneEp0in
      { s with dev := { s.dev with addr := a }, ctl := { s.ctl with pendingAddr := none } }
  | chunk (ha : s.ctl.pendingAddr = none) (x : Xfer) (hx : s.ctl.xfer = some x) :
    EventOutcome s .doneEp0in (chunkSent x s)
  | zeroLength (x : Xfer) (hx : s.ctl.xfer = some x) :
    EventOutcome s .doneEp0in
      { s.setBd .ep0in ⟨.sie, 0⟩ with ctl := { s.ctl with xfer := some { x with zlpDue := false } } }
  | ends : EventOutcome s .doneEp0in { s with ctl := { s.ctl with xfer := none } }

theorem handleEp0Out_outcome {s t : State} (h : handleEp0Out s = .next t) : EventOutcome s .doneEp0out t := by
  obtain ⟨-, u, -, rfl, ⟨hs, hu⟩ | ⟨-, hu⟩⟩ := handleEp0Out_next h
  · exact .setup hs u (handleSetup_next hu)
  · rcases handleEp0Data_next hu with ⟨hl, -, lc, rfl⟩ | ⟨hl, rfl⟩
    · exact .lineCoding hl lc
    · exact .status hl

theorem handleEp0In_outcome {s t : State} (h : handleEp0In s = .next t) : EventOutcome s .doneEp0in t := by
  rcases handleEp0In_next h with ⟨a, ha, rfl⟩ | ⟨ha, x, hx, hc⟩ | ⟨-, -, rfl⟩
  · exact .address a ha
  · rcases continueIn_next hc with ⟨-, -, rfl⟩ | ⟨-, -, -, rfl⟩ | ⟨-, -, rfl⟩
    · exact .chunk ha x hx
    · exact .zeroLength x hx
    · exact .ends
  · exact .nothing _ (by simp)

theorem handleEvent_outcome {ev : SieEvent} {s t : State} (h : handleEvent ev s = .next t) : EventOutcome s ev t := by
  cases ev with
  | busReset => obtain ⟨-, -, rfl⟩ := handleBusReset_eq_next.mp h; exact .resets
  | doneEp0out => exact handleEp0Out_outcome h
  | doneEp0in => exact handleEp0In_outcome h
  | doneBin k => cases h; exact .nothing _ (by simp)
  | doneBout k => cases h; exact .nothing _ (by simp)

/-- The state with the events that wait replaced: the poll has taken the oldest. -/
def State.withQueue (s : State) (q : List SieEvent) : State := { s with sie := { s.sie with queue := q } }

/-- A poll does nothing for the SIE, or handles the oldest event. -/
theorem serviceSie_next {s t : State} (h : serviceSie s = .next t) :
    t = s ∨ ∃ ev q, s.sie.queue = ev :: q ∧ EventOutcome (s.withQueue q) ev t := by
  unfold serviceSie at h
  split at h
  · cases h; exact .inl rfl
  · next ev q hq => exact .inr ⟨ev, q, hq, handleEvent_outcome h⟩

/-- A poll: the oldest event, if there is one, is handled, and then the bulk manager acts twice. -/
theorem exec_usbPoll_next {s t : State} (h : exec .usbPoll s = .next t) :
    ∃ u v w, (u = s ∨ ∃ ev q, s.sie.queue = ev :: q ∧ EventOutcome (s.withQueue q) ev u) ∧
      BulkAct u v ∧ BulkAct v w ∧ t = respond .ok [] w := by
  obtain ⟨u, v, w, hu, hv, hw, rfl⟩ := execUsbPoll_eq_next.mp h
  exact ⟨u, v, w, serviceSie_next hu, bulkOutZeroLength_act hv, idleStep_act hw, rfl⟩

/-! ### What a step can run -/

section
variable {first : Byte} {bytes : List Byte} {j : Instr}

theorem args0_ok {i : Instr} (h : args0 first i bytes = .ok j) : j = i := by
  unfold args0 at h
  split at h <;> cases h
  rfl

theorem args1_ok {f : Byte → Instr} (h : args1 first f bytes = .ok j) : ∃ a, j = f a := by
  unfold args1 at h
  split at h <;> cases h
  exact ⟨_, rfl⟩

theorem args2_ok {f : Byte → Byte → Instr} (h : args2 first f bytes = .ok j) : ∃ a b, j = f a b := by
  unfold args2 at h
  split at h <;> cases h
  exact ⟨_, _, rfl⟩

theorem args3_ok {f : Byte → Byte → Byte → Instr} (h : args3 first f bytes = .ok j) : ∃ a b c, j = f a b c := by
  unfold args3 at h
  split at h <;> cases h
  exact ⟨_, _, _, rfl⟩

theorem args4_ok {f : Byte → Byte → Byte → Byte → Instr} (h : args4 first f bytes = .ok j) :
    ∃ a b c d, j = f a b c d := by
  unfold args4 at h
  split at h <;> cases h
  exact ⟨_, _, _, _, rfl⟩

theorem frameArgs_ok (h : frameArgs first bytes = .ok j) : ∃ f i n d, j = .canSend f i n d := by
  unfold frameArgs at h
  split at h <;> cases h
  exact ⟨_, _, _, _, rfl⟩

end

/-- A request that decodes is a client operation, and a poll is the request of the one byte 01 (30_encoding.md R142). -/
theorem decodeClient_ok {bytes : List Byte} {i : Instr} (h : decodeClient bytes = .ok i) :
    i.opClass = .client ∧ (i = .usbPoll → bytes = [0x01]) := by
  cases bytes with
  | nil => cases h
  | cons op rest =>
    simp only [decodeClient] at h
    split at h
    case h_1 hop =>
      have hop : op = 0x01 := BitVec.eq_of_toNat_eq hop
      cases rest with
      | nil => exact ⟨by rw [args0_ok h]; rfl, fun _ => by rw [hop]⟩
      | cons b bs => cases h
    case h_2 => cases args0_ok h; exact ⟨rfl, nofun⟩
    case h_3 => obtain ⟨_, rfl⟩ := args1_ok h; exact ⟨rfl, nofun⟩
    case h_4 => cases args0_ok h; exact ⟨rfl, nofun⟩
    case h_5 => cases args0_ok h; exact ⟨rfl, nofun⟩
    case h_6 => cases args0_ok h; exact ⟨rfl, nofun⟩
    case h_7 => cases args0_ok h; exact ⟨rfl, nofun⟩
    case h_8 => obtain ⟨_, rfl⟩ := args1_ok h; exact ⟨rfl, nofun⟩
    case h_9 => obtain ⟨_, _, rfl⟩ := args2_ok h; exact ⟨rfl, nofun⟩
    case h_10 => obtain ⟨_, _, _, rfl⟩ := args3_ok h; exact ⟨rfl, nofun⟩
    case h_11 => cases args0_ok h; exact ⟨rfl, nofun⟩
    case h_12 => cases args0_ok h; exact ⟨rfl, nofun⟩
    case h_13 => obtain ⟨_, _, _, rfl⟩ := args3_ok h; exact ⟨rfl, nofun⟩
    case h_14 => obtain ⟨_, rfl⟩ := args1_ok h; exact ⟨rfl, nofun⟩
    case h_15 => obtain ⟨_, _, _, _, rfl⟩ := args4_ok h; exact ⟨rfl, nofun⟩
    case h_16 => obtain ⟨_, _, _, _, rfl⟩ := args4_ok h; exact ⟨rfl, nofun⟩
    case h_17 => cases args0_ok h; exact ⟨rfl, nofun⟩
    case h_18 => obtain ⟨_, _, _, _, rfl⟩ := frameArgs_ok h; exact ⟨rfl, nofun⟩
    case h_19 => cases args0_ok h; exact ⟨rfl, nofun⟩
    case h_20 => cases h

theorem decodeRead_opClass {cmd : Byte} {bytes : List Byte} {i : Instr} (h : decodeRead cmd bytes = .ok i) :
    i.opClass = .serial := by
  unfold decodeRead at h
  split at h
  · split at h <;> cases h
    rfl
  · cases h

theorem decodeWrite_opClass {cmd : Byte} {bytes : List Byte} {i : Instr} (h : decodeWrite cmd bytes = .ok i) :
    i.opClass = .serial := by
  unfold decodeWrite at h
  split at h <;> cases h
  rfl

theorem decodeReadStatus_opClass {cmd : Byte} {bytes : List Byte} {i : Instr}
    (h : decodeReadStatus cmd bytes = .ok i) : i.opClass = .serial := by
  unfold decodeReadStatus at h
  split at h
  · split at h <;> cases h
    rfl
  · cases h

theorem decodeLoadTx_opClass {cmd : Byte} {x : Fin 3} {bytes : List Byte} {i : Instr}
    (h : decodeLoadTx cmd x bytes = .ok i) : i.opClass = .serial := by
  unfold decodeLoadTx at h
  split at h <;> cases h
  rfl

theorem decodeReadRx_opClass {cmd : Byte} {b : Fin 2} {bytes : List Byte} {i : Instr}
    (h : decodeReadRx cmd b bytes = .ok i) : i.opClass = .serial := by
  unfold decodeReadRx at h
  split at h
  · cases h
  · split at h <;> cases h
    rfl

/-- A transaction that decodes is a serial-bus command. -/
theorem decodeSerial_opClass {m : ChipTable} {bytes : List Byte} {i : Instr} (h : decodeSerial m bytes = .ok i) :
    i.opClass = .serial := by
  cases bytes with
  | nil => cases h
  | cons cmd rest =>
    simp only [decodeSerial] at h
    split at h; · cases args0_ok h; rfl
    split at h; · exact decodeRead_opClass h
    split at h; · exact decodeWrite_opClass h
    split at h; · obtain ⟨_, _, _, rfl⟩ := args3_ok h; rfl
    split at h; · exact decodeReadStatus_opClass h
    split at h; · exact decodeLoadTx_opClass h
    split at h; · exact decodeLoadTx_opClass h
    split at h; · exact decodeLoadTx_opClass h
    split at h; · exact decodeReadRx_opClass h
    split at h; · exact decodeReadRx_opClass h
    cases h

/-- A serial-bus command does not use the USB function. -/
theorem usesUsb_of_serial {i : Instr} (h : i.opClass = .serial) : usesUsb i = false := by
  cases i <;> first | rfl | cases h

/-- What a step can do before the SIE settles: a poll, a bulk operation of the client or the answer ILLEGAL, work on the
serial bus or something outside, a token, or the clock's advance. -/
inductive StepOutcome (s : State) : State → Prop where
  | poll (rest : List Input) (hb : s.bench = none) (hi : s.inputs = .request [0x01] :: rest) (u v w : State)
    (hu : u = s.accept rest ∨
      ∃ ev q, s.sie.queue = ev :: q ∧ EventOutcome ((s.accept rest).withQueue q) ev u)
    (hv : BulkAct u v) (hw : BulkAct v w) : StepOutcome s (respond .ok [] w)
  | bulk (rest : List Input) (st : Status) (r : List Byte) (u : State) (hu : BulkAct (s.accept rest) u) :
    StepOutcome s (respond st r u)
  | bus (rest : List Input) (b : Option (List Byte)) (u : State) (hu : BusOnly { s.accept rest with bench := b } u) :
    StepOutcome s u
  | token (rest : List Input) (k : Token) : StepOutcome s (sieToken k (s.accept rest))
  | tick (rest : List Input) : StepOutcome s (tick (s.accept rest))

theorem BusOnly.outsideAct (o : Outside) (s : State) : BusOnly s (outsideAct o s) := by constructor <;> simp

/-- A client request that decodes is a poll, a bulk operation or one over the serial bus. -/
theorem exec_client_outcome {s t : State} {bytes : List Byte} {rest : List Input} {j : Instr} (hb : s.bench = none)
    (hi : s.inputs = .request bytes :: rest) (hd : decodeClient bytes = .ok j)
    (h : exec j (s.accept rest) = .next t) : StepOutcome s t := by
  obtain ⟨hc, hpoll⟩ := decodeClient_ok hd
  by_cases hj : j = .usbPoll
  · subst hj
    obtain ⟨u, v, w, hu, hv, hw, rfl⟩ := exec_usbPoll_next h
    exact .poll rest hb (hpoll rfl ▸ hi) u v w hu hv hw
  · by_cases hu : usesUsb j = true
    · obtain ⟨st, r, u, hact, rfl⟩ := exec_act hu (by rw [hc]; decide) hj h
      exact .bulk rest st r u hact
    · exact .bus rest s.bench t (exec_busOnly (by simpa using hu) h)

/-- A step does nothing, or what `StepOutcome` says and then the SIE settles. -/
theorem step_outcome {s t : State} (h : step s = .next t) : t = s ∨ ∃ u, StepOutcome s u ∧ t = sieSettle u := by
  rcases step_eq_next h with ⟨-, -, rfl⟩ | ⟨bytes, u, -, hu, rfl⟩ | ⟨i, rest, u, hb, hi, hu, rfl⟩
  · exact .inl rfl
  · obtain ⟨j, hd, he⟩ := stepBench_eq_next hu
    exact .inr ⟨u, .bus s.inputs none u (exec_busOnly (usesUsb_of_serial (decodeSerial_opClass hd)) he), rfl⟩
  · refine .inr ⟨u, ?_, rfl⟩
    rcases stepInput_eq_next hu with ⟨bytes, j, rfl, hd, he⟩ | ⟨bytes, op, rfl, -, rfl⟩ | ⟨k, rfl, rfl⟩ |
      ⟨o, rfl, rfl⟩ | ⟨rfl, rfl⟩
    · exact exec_client_outcome hb hi hd he
    · exact .bulk rest _ _ _ .rests
    · exact .token rest k
    · exact .bus rest s.bench _ (BusOnly.outsideAct o _)
    · exact .tick rest

end Sys2Proof.Machine
end

section
/-! PROOF. What the SIE can do on a token, and what its settling leaves alone. -/

namespace Sys2Proof.Machine

/-! ### The outcomes of a token -/

/-- The state after the SIE has sent the endpoint-0 IN packet. -/
def ep0Sent (s : State) : State :=
  (post .doneEp0in ((giveBack .ep0in s).setToggles { s.sie.toggles with ep0in := !s.sie.toggles.ep0in })).answered
    (.data s.sie.toggles.ep0in (s.armedBytes .ep0in))

/-- The state after the SIE has received data into the endpoint-0 OUT buffer. -/
def ep0Received (data : List Byte) (s : State) : State :=
  (post .doneEp0out ((deliver .ep0out data s).setToggles
    { s.sie.toggles with ep0out := !s.sie.toggles.ep0out })).answered .ack

/-- What the SIE can do on a token (60_exceptions.md R612). -/
inductive TokenOutcome (s : State) : Token → State → Prop where
  | answers (k : Token) (a : Answer) : TokenOutcome s k (s.answered a)
  | resets : TokenOutcome s .busReset (sieBusReset s)
  | setup (p : Vector Byte 8) : TokenOutcome s (.setup s.dev.addr p) (sieSetup p s)
  | sends0 (k : Token) (ho : (s.bd .ep0in).own = .sie) : TokenOutcome s k (ep0Sent s)
  | receives0 (k : Token) (data : List Byte) (ho : (s.bd .ep0out).own = .sie)
    (hl : data.length ≤ s.cfg.ep0Size.bytes) : TokenOutcome s k (ep0Received data s)
  | sendsBulk (k : Token) (ho : (s.bd (.bin s.sie.nextIn)).own = .sie) : TokenOutcome s k (bulkInSent s)
  | receivesBulk (k : Token) (data : List Byte) (ho : (s.bd (.bout s.sie.nextOut)).own = .sie)
    (hl : data.length ≤ s.cfg.bulkSize.val) : TokenOutcome s k (bulkOutReceived data s)

theorem sieInToken_outcome (k : Token) (ep : BitVec 4) (s : State) : TokenOutcome s k (sieInToken ep s) := by
  unfold sieInToken
  split
  · rcases sieIn0_cases s with ⟨a, -, h⟩ | ⟨-, -, ho, h⟩
    · rw [h]; exact .answers k a
    · rw [h]; exact .sends0 k ho
  split
  · rcases sieBulkIn_cases s with ⟨-, a, -, h⟩ | ⟨-, ho, h⟩
    · rw [h]; exact .answers k a
    · rw [h]; exact .sendsBulk k ho
  split
  · exact .answers k .nak
  · exact .answers k .silent

theorem sieOutToken_outcome (k : Token) (ep : BitVec 4) (data : List Byte) (s : State) :
    TokenOutcome s k (sieOutToken ep data s) := by
  unfold sieOutToken
  split
  · rcases sieOut0_cases data s with ⟨a, -, h⟩ | ⟨-, -, ho, hl, h⟩
    · rw [h]; exact .answers k a
    · rw [h]; exact .receives0 k data ho hl
  split
  · rcases sieBulkOut_cases data s with ⟨a, -, h⟩ | ⟨-, ho, hl, h⟩
    · rw [h]; exact .answers k a
    · rw [h]; exact .receivesBulk k data ho hl
  · exact .answers k .silent

theorem sieToken_outcome (k : Token) (s : State) : TokenOutcome s k (sieToken k s) := by
  cases k with
  | busReset => exact .resets
  | setup a p =>
    by_cases h : a = s.addrOut
    · subst h
      rw [sieToken, if_pos rfl]
      exact .setup p
    · rw [sieToken, if_neg h]
      exact .answers _ .silent
  | inToken a ep =>
    simp only [sieToken]
    split
    · exact sieInToken_outcome _ ep s
    · exact .answers _ .silent
  | outToken a ep data =>
    simp only [sieToken]
    split
    · exact sieOutToken_outcome _ ep data s
    · exact .answers _ .silent

/-! ### What no token writes -/

/-- The SIE writes its own state, the buffers and their descriptors, and its answer: nothing else. -/
structure SieOnly (s t : State) : Prop where
  cfg : t.cfg = s.cfg
  dev : t.dev = s.dev
  ctl : t.ctl = s.ctl
  bin : t.bin = s.bin
  bout : t.bout = s.bout
  serial : t.serial = s.serial
  clock : t.clock = s.clock

theorem TokenOutcome.sieOnly {s t : State} {k : Token} (h : TokenOutcome s k t) : SieOnly s t := by
  cases h with
  | answers _ a => exact ⟨rfl, rfl, rfl, rfl, rfl, rfl, rfl⟩
  | resets => constructor <;> simp [sieBusReset]
  | setup p => constructor <;> simp
  | sends0 _ ho => constructor <;> simp [ep0Sent]
  | receives0 _ data ho hl => constructor <;> simp [ep0Received]
  | sendsBulk _ ho => exact ⟨rfl, rfl, rfl, rfl, rfl, rfl, rfl⟩
  | receivesBulk _ data ho hl => exact ⟨rfl, rfl, rfl, rfl, rfl, rfl, rfl⟩

theorem sieToken_sieOnly (k : Token) (s : State) : SieOnly s (sieToken k s) := (sieToken_outcome k s).sieOnly

@[simp] theorem sieToken_dev (k : Token) (s : State) : (sieToken k s).dev = s.dev := (sieToken_sieOnly k s).dev
@[simp] theorem sieToken_ctl (k : Token) (s : State) : (sieToken k s).ctl = s.ctl := (sieToken_sieOnly k s).ctl
@[simp] theorem sieToken_cfg (k : Token) (s : State) : (sieToken k s).cfg = s.cfg := (sieToken_sieOnly k s).cfg

/-- The IN buffer of endpoint 0 after a SETUP packet: the block's, with the count it had. -/
theorem givenUp_in (d : Bd) : d.givenUp false = ⟨.sw, d.count⟩ := by
  cases d with
  | mk own count => cases own <;> rfl

/-- A SETUP packet is 8 bytes of the block's in the endpoint-0 OUT buffer, and the IN buffer is the block's. -/
theorem sieSetup_bds (p : Vector Byte 8) (s : State) :
    (sieSetup p s).bds =
      { s.bds with ep0out := ⟨.sw, 8⟩, ep0setup := true, ep0in := ⟨.sw, s.bds.ep0in.count⟩ } := by
  have hlen : p.toList.length = 8 := by simp
  show ({ s.bds with
    ep0out := ⟨.sw, p.toList.length⟩, ep0setup := true, ep0in := s.bds.ep0in.givenUp false } : Bds) = _
  rw [hlen, givenUp_in]

/-! ### Settling -/

theorem State.resetWaits_eq_true {s : State} : s.resetWaits = true ↔ .busReset ∈ s.sie.queue := by
  simp [State.resetWaits]

theorem State.setupWaits_eq_true {s : State} :
    s.setupWaits = true ↔ (s.bd .ep0out).own = .sw ∧ s.bds.ep0setup = true := by
  simp [State.setupWaits]

/-- Giving up a buffer leaves every descriptor that the block owns as it is. -/
theorem giveUp_bd_of_sw {b c : Buf} {s : State} (h : (s.bd b).own = .sw) : (giveUp c s).bd b = s.bd b := by
  rw [giveUp_bd]
  split
  · exact Bd.givenUp_of_sw h _
  · rfl

theorem giveUpAll_bd_of_sw {b : Buf} {s : State} (h : (s.bd b).own = .sw) : (giveUpAll s).bd b = s.bd b := by
  rw [giveUpAll_bd, Bd.givenUp_of_sw h]

theorem redeliver_bd_of_sw {b : Buf} {s : State} (h : (s.bd b).own = .sw) : (redeliver s).bd b = s.bd b := by
  rcases redeliver_cases s with ⟨-, hr⟩ | ⟨-, ho, hr⟩
  · rw [hr]
  · have hb : b ≠ .ep0out := by
      rintro rfl
      rw [h] at ho
      cases ho
    rw [hr]
    exact Bds.get_set_other s.bds (b := .ep0out) _ hb

theorem sieTakeBack_bd_of_sw {b : Buf} {s : State} (h : (s.bd b).own = .sw) : (sieTakeBack s).bd b = s.bd b := by
  have hu : ((if s.resetWaits then giveUpAll s else s).bd b) = s.bd b := by
    split
    · exact giveUpAll_bd_of_sw h
    · rfl
  simp only [sieTakeBack]
  generalize (if s.resetWaits then giveUpAll s else s) = u at hu
  split
  · rw [giveUp_bd_of_sw (by rw [hu, h]), hu]
  · exact hu

/-- The settling changes no descriptor that the block owns. -/
theorem sieSettle_bd_of_sw {b : Buf} {s : State} (h : (s.bd b).own = .sw) : (sieSettle s).bd b = s.bd b := by
  have hr := redeliver_bd_of_sw h
  rw [sieSettle, sieTakeBack_bd_of_sw (by rw [hr, h]), hr]

/-- With no bus reset waiting, the settling changes descriptors of endpoint 0 only. -/
theorem sieSettle_bd_of_bulk {b : Buf} {s : State} (hr : s.resetWaits = false) (hout : b ≠ .ep0out)
    (hin : b ≠ .ep0in) : (sieSettle s).bd b = s.bd b := by
  have hre : (redeliver s).bd b = s.bd b := by
    rcases redeliver_cases s with ⟨-, h⟩ | ⟨-, -, h⟩
    · rw [h]
    · rw [h]
      exact Bds.get_set_other s.bds (b := .ep0out) _ hout
  have hrr : (redeliver s).resetWaits = false := by rw [State.resetWaits, redeliver_sie]; exact hr
  simp only [sieSettle, sieTakeBack, hrr]
  simp only [Bool.false_eq_true, if_false]
  split
  · rw [giveUp_bd, if_neg hin, hre]
  · exact hre

/-- There is nothing for the SIE to return or to take back. -/
structure State.Settled (s : State) : Prop where
  out : .doneEp0out ∈ s.sie.queue → (s.bd .ep0out).own = .sw
  reset : .busReset ∈ s.sie.queue → ∀ b, (s.bd b).own = .sw
  setup : s.bds.ep0setup = true → (s.bd .ep0in).own = .sw

theorem sieSettle_of_settled {s : State} (h : s.Settled) : sieSettle s = s := by
  have hre : redeliver s = s := by
    rcases redeliver_cases s with ⟨-, hr⟩ | ⟨hq, ho, -⟩
    · exact hr
    · rw [h.out hq] at ho
      cases ho
  have hall : (if s.resetWaits then giveUpAll s else s) = s := by
    split
    · next hr => exact giveUpAll_of_sw (h.reset (State.resetWaits_eq_true.mp hr))
    · rfl
  simp only [sieSettle, hre, sieTakeBack, hall]
  split
  · next hs => exact giveUp_of_sw (h.setup (State.setupWaits_eq_true.mp hs).2)
  · rfl

theorem State.Ep0InStep.settled {s : State} (h : s.Ep0InStep) : s.Settled where
  out hq := (h.out hq).1
  reset hq := h.reset (State.resetWaits_eq_true.mpr hq)
  setup hs := (h.setup hs).1

end Sys2Proof.Machine
end

section
/-! PROOF. The frames of the two families of operations (O15, O17), and what a step can do to the device address and to
the protocol stall (O13, O14). -/

namespace Sys2Proof.Machine

/-! ### An operation of the USB function leaves the CAN side alone -/

theorem SameCan.refl (s : State) : SameCan s s := ⟨rfl, rfl, rfl, rfl, rfl, rfl, rfl, rfl, rfl, rfl, rfl⟩

theorem SameCan.trans {s t u : State} (h : SameCan s t) (k : SameCan t u) : SameCan s u where
  cfg := k.cfg.trans h.cfg
  can := k.can.trans h.can
  serial := k.serial.trans h.serial
  chip := k.chip.trans h.chip
  pins := k.pins.trans h.pins
  clock := k.clock.trans h.clock
  during := k.during.trans h.during
  txns := k.txns.trans h.txns
  answer := k.answer.trans h.answer
  inputs := k.inputs.trans h.inputs
  bench := k.bench.trans h.bench

/-- The fields that the USB function may write. -/
theorem SameCan.updates (s : State) {dev : Dev} {ctl : Ctl} {bds : Bds} {mem : Memory} {bin : BulkIn} {bout : BulkOut}
    {sie : Sie} {response : Option Response} {pulses : List Pulse} {draws : Nat} :
    SameCan s { s with
      dev := dev, ctl := ctl, bds := bds, mem := mem, bin := bin, bout := bout, sie := sie, response := response,
      pulses := pulses, draws := draws } :=
  ⟨rfl, rfl, rfl, rfl, rfl, rfl, rfl, rfl, rfl, rfl, rfl⟩

theorem BulkAct.sameCan {s t : State} (h : BulkAct s t) : SameCan s t := by
  cases h with
  | rests => exact .refl s
  | _ => exact .updates s

theorem SetupOutcome.sameCan {s t : State} (h : SetupOutcome s t) : SameCan s t := by
  cases h with
  | configures c hc u hu ho =>
    rw [bulkReset_eq, Host.Outcome.next.injEq] at hu
    subst hu
    split <;> exact .updates s
  | _ => exact .updates s

theorem EventOutcome.sameCan {s t : State} {ev : SieEvent} (h : EventOutcome s ev t) : SameCan s t := by
  cases h with
  | nothing _ _ => exact .refl s
  | setup hs u hu =>
    have hu : SameCan s u := (SameCan.updates s).trans hu.sameCan
    exact hu.trans (.updates u)
  | _ => exact .updates s

/-- Taking the oldest event and handling it leaves the CAN side alone. -/
theorem sameCan_of_event {s u : State}
    (h : u = s ∨ ∃ ev q, s.sie.queue = ev :: q ∧ EventOutcome (s.withQueue q) ev u) : SameCan s u := by
  rcases h with rfl | ⟨ev, q, -, h⟩
  · exact .refl u
  · exact (SameCan.updates s).trans h.sameCan

theorem exec_sameCan {i : Instr} {s t : State} (hi : usesUsb i = true) (h : exec i s = .next t) : SameCan s t := by
  by_cases hs : i.opClass = .setup
  · exact (exec_setupOutcome hs h).sameCan
  · by_cases hp : i = .usbPoll
    · subst hp
      obtain ⟨u, v, w, hu, hv, hw, rfl⟩ := exec_usbPoll_next h
      exact (((sameCan_of_event hu).trans hv.sameCan).trans hw.sameCan).trans (.updates w)
    · obtain ⟨st, r, u, hu, rfl⟩ := exec_act hi hs hp h
      exact hu.sameCan.trans (.updates u)

/-- Settles O15: an operation of the USB function is a control request, a poll or a bulk operation, and none of these
writes a field of the CAN side. -/
theorem usbOperationsLeaveCanAlone : Obligations.UsbOperationsLeaveCanAlone :=
  fun _ _ _ hi h => exec_sameCan hi h

/-! ### The bulk manager and the serial bus leave the control state alone -/

theorem SameControl.trans {s t u : State} (h : SameControl s t) (k : SameControl t u) : SameControl s u where
  dev := k.dev.trans h.dev
  ctl := k.ctl.trans h.ctl
  ep0out := k.ep0out.trans h.ep0out
  ep0setup := k.ep0setup.trans h.ep0setup
  ep0in := k.ep0in.trans h.ep0in
  queue := k.queue.trans h.queue
  pulses := k.pulses.trans h.pulses

/-- The fields that are no control state. -/
theorem SameControl.updates (s : State) {mem : Memory} {bin : BulkIn} {bout : BulkOut} {response : Option Response}
    {draws : Nat} :
    SameControl s { s with mem := mem, bin := bin, bout := bout, response := response, draws := draws } :=
  ⟨rfl, rfl, rfl, rfl, rfl, rfl, rfl⟩

/-- The descriptor of a bulk buffer is no control state. -/
theorem SameControl.setBd (s : State) (b : Buf) (x : Bd) (hout : .ep0out ≠ b) (hin : .ep0in ≠ b) :
    SameControl s (s.setBd b x) where
  dev := rfl
  ctl := rfl
  ep0out := State.bd_setBd_other s x hout
  ep0setup := Bds.set_ep0setup s.bds b x
  ep0in := State.bd_setBd_other s x hin
  queue := rfl
  pulses := rfl

theorem SameControl.handedOver (s : State) : SameControl s (handedOver s) :=
  (SameControl.setBd s (.bin s.bin.active) ⟨.sie, s.bin.fill⟩ nofun nofun).trans (.updates _)

theorem SameControl.passedOn (s : State) : SameControl s (passedOn s) :=
  (SameControl.setBd s (.bout s.bout.active) ⟨.sie, s.cfg.bulkSize.val⟩ nofun nofun).trans (.updates _)

theorem SameControl.appended (b : Byte) (s : State) : SameControl s (appended b s) := .updates s

theorem BulkAct.sameControl {s t : State} (h : BulkAct s t) : SameControl s t := by
  cases h with
  | rests => exact .updates s
  | draws n => exact .updates s
  | counts i hi h0 => exact .updates s
  | appends b hc ho hf => exact .appended b s
  | fills b hc ho hf => exact (SameControl.appended b s).trans (.handedOver _)
  | flushes hf ho => exact .handedOver s
  | takes ho hp hc => exact .updates s
  | passes hc ho => exact .passedOn s

theorem BusOnly.sameControl {s t : State} (h : BusOnly s t) : SameControl s t where
  dev := h.dev
  ctl := h.ctl
  ep0out := State.bd_congr h.bds .ep0out
  ep0setup := by rw [h.bds]
  ep0in := State.bd_congr h.bds .ep0in
  queue := by rw [h.sie]
  pulses := h.pulses

/-- Settles O17: such an operation is a bulk operation of the client or works on the serial bus only. -/
theorem onlyControlWritesControlState : Obligations.OnlyControlWritesControlState := by
  intro i s t hs hp h
  by_cases hu : usesUsb i = true
  · obtain ⟨st, r, u, hact, rfl⟩ := exec_act hu hs hp h
    exact hact.sameControl.trans (.updates u)
  · exact (exec_busOnly (by simpa using hu) h).sameControl

/-! ### The device address -/

theorem SetupOutcome.addr {s t : State} (h : SetupOutcome s t) : t.dev.addr = s.dev.addr := by
  cases h with
  | configures c hc u hu ho =>
    rw [bulkReset_eq, Host.Outcome.next.injEq] at hu
    subst hu
    split <;> rfl
  | _ => rfl

theorem EventOutcome.addr {s t : State} {ev : SieEvent} (h : EventOutcome s ev t) :
    t.dev.addr = s.dev.addr ∨ (ev = .doneEp0in ∧ s.ctl.pendingAddr = some t.dev.addr) ∨
      (ev = .busReset ∧ t.dev.addr = 0) := by
  cases h with
  | resets => exact .inr (.inr ⟨rfl, rfl⟩)
  | setup hs u hu => exact .inl hu.addr
  | address a ha => exact .inr (.inl ⟨rfl, ha⟩)
  | _ => exact .inl rfl

/-- Settles O13: of all that a step can do, only the handling of an event writes the address. -/
theorem addressChangesOnlyAsPending : Obligations.AddressChangesOnlyAsPending := by
  intro s t h
  rcases step_outcome h with rfl | ⟨u, hu, rfl⟩
  · exact .inl rfl
  rw [sieSettle_dev]
  cases hu with
  | poll rest hb hi u v w hu hv hw =>
    have hdev : (respond .ok [] w).dev = u.dev := hw.sameControl.dev.trans hv.sameControl.dev
    rw [hdev]
    rcases hu with rfl | ⟨ev, q, hq, hu⟩
    · exact .inl rfl
    · rcases hu.addr with ha | ⟨rfl, ha⟩ | ⟨rfl, ha⟩
      · exact .inl ha
      · exact .inr (.inl ⟨q, hq, ha⟩)
      · exact .inr (.inr ⟨q, hq, ha⟩)
  | bulk rest st r u hu => exact .inl (congrArg Dev.addr hu.sameControl.dev)
  | bus rest b u hu => exact .inl (congrArg Dev.addr hu.dev)
  | token rest k => exact .inl (by rw [sieToken_dev, State.accept_dev])
  | tick rest => exact .inl rfl

/-! ### The protocol stall -/

/-- No request rule leaves the protocol stall: the SETUP prologue before it does. -/
theorem EventOutcome.stall {s t : State} {ev : SieEvent} (h : EventOutcome s ev t) (hs : s.ctl.stall = true)
    (ht : t.ctl.stall = false) : ev = .busReset ∨ (ev = .doneEp0out ∧ s.bds.ep0setup = true) := by
  cases h with
  | resets => exact .inl rfl
  | setup h u hu => exact .inr ⟨rfl, h⟩
  | _ => exact absurd (hs.symm.trans ht) (by decide)

/-- Settles O14: only a poll writes the control state, and of the events it takes only these two leave the stall. -/
theorem stallIsLeftOnlyBySetupOrBusReset : Obligations.StallIsLeftOnlyBySetupOrBusReset := by
  intro s t h hs ht
  have same {c : Ctl} (hc : c = s.ctl) (hf : c.stall = false) : False := by
    rw [hc, hs] at hf
    exact Bool.noConfusion hf
  rcases step_outcome h with rfl | ⟨u, hu, rfl⟩
  · exact (same rfl ht).elim
  rw [sieSettle_ctl] at ht
  cases hu with
  | poll rest hb hi u v w hu hv hw =>
    have hctl : (respond .ok [] w).ctl = u.ctl := hw.sameControl.ctl.trans hv.sameControl.ctl
    rw [hctl] at ht
    rcases hu with rfl | ⟨ev, q, hq, hu⟩
    · exact (same rfl ht).elim
    · rcases hu.stall hs ht with rfl | ⟨rfl, hset⟩
      · exact ⟨rest, q, hb, hi, .inl hq⟩
      · exact ⟨rest, q, hb, hi, .inr ⟨hq, hset⟩⟩
  | bulk rest st r u hu => exact (same hu.sameControl.ctl ht).elim
  | bus rest b u hu => exact (same hu.ctl ht).elim
  | token rest k => exact (same (sieToken_ctl k (s.accept rest)) ht).elim
  | tick rest => exact (same rfl ht).elim

end Sys2Proof.Machine
end

section
/-! PROOF. Every step keeps the machine's invariant (O10). The invariant is cut into what it says of the buffers with
their managers, and of the control state; each of the outcomes of a step changes few of these parts. -/

namespace Sys2Proof.Machine

/-! ### The parts of the invariant -/

/-- The part of the invariant that speaks of the descriptors and of the bulk managers. -/
structure BuffersOk (cfg : Params) (config : Byte) (bds : Bds) (bin : BulkIn) (bout : BulkOut) : Prop where
  count : ∀ b, (bds.get b).count ≤ b.size cfg
  fillOwned : 0 < bin.fill → (bds.get (.bin bin.active)).own = .sw
  fill : bin.fill < cfg.bulkSize.val
  idle : bin.idle < cfg.idleFlushPolls.val
  idleFill : bin.fill = 0 → bin.idle = 0
  unread : 0 < bout.pos →
    (bds.get (.bout bout.active)).own = .sw ∧ bout.pos < (bds.get (.bout bout.active)).count
  notConfigured : config = 0 →
    bin.fill = 0 ∧ bout.pos = 0 ∧ ∀ k, (bds.get (.bin k)).own = .sw ∧ (bds.get (.bout k)).own = .sw
  setup : bds.ep0setup = true → bds.get .ep0out = ⟨.sw, 8⟩

/-- What an IN data stage has still to send is in its reply. -/
def XferOk (x : Xfer) : Prop := x.off + x.rem ≤ x.data.length ∧ x.off + x.rem ≤ 65535

/-- The part of the invariant that speaks of the control-transfer state. -/
structure CtlOk (ctl : Ctl) : Prop where
  stalled : ctl.stall = true → ctl = idleCtl true
  oneStage : (ctl.pendingAddr.isSome → ctl.lcPending = false ∧ ctl.xfer = none) ∧
    (ctl.lcPending = true → ctl.xfer = none)
  transfer : ∀ x, ctl.xfer = some x → XferOk x

theorem State.Inv.buffersOk {s : State} (h : s.Inv) : BuffersOk s.cfg s.dev.config s.bds s.bin s.bout :=
  ⟨h.count, h.fillOwned, h.fill, h.idle, h.idleFill, h.unread, h.notConfigured, h.setup⟩

theorem State.Inv.ctlOk {s : State} (h : s.Inv) : CtlOk s.ctl := ⟨h.stalled, h.oneStage, h.transfer⟩

/-- The invariant after a change that leaves the parameters, the lines of the serial bus and the clock alone. -/
theorem State.Inv.update {s t : State} (h : s.Inv) (hcfg : t.cfg = s.cfg) (hserial : t.serial = s.serial)
    (hclock : t.clock = s.clock) (hmem : t.mem.wf = true)
    (hconfig : t.dev.config = 0 ∨ t.dev.config = s.cfg.configValue)
    (hb : BuffersOk s.cfg t.dev.config t.bds t.bin t.bout) (hc : CtlOk t.ctl) : t.Inv where
  memory := hmem
  busIdle := by rw [hserial, hcfg, h.busIdle]
  clock := by rw [hclock]; exact h.clock
  config := by rw [hcfg]; exact hconfig
  count := by rw [hcfg]; exact hb.count
  fillOwned := hb.fillOwned
  fill := by rw [hcfg]; exact hb.fill
  idle := by rw [hcfg]; exact hb.idle
  idleFill := hb.idleFill
  unread := hb.unread
  notConfigured := hb.notConfigured
  setup := hb.setup
  stalled := hc.stalled
  oneStage := hc.oneStage
  transfer := hc.transfer

/-- The invariant does not speak of the inputs, of the bench or of what the last request and token put out. -/
theorem State.Inv.accept {s : State} (h : s.Inv) (rest : List Input) (b : Option (List Byte)) :
    ({ s.accept rest with bench := b } : State).Inv :=
  h.update rfl rfl rfl h.memory h.config h.buffersOk h.ctlOk

theorem State.Inv.respond {s : State} (h : s.Inv) (st : Status) (r : List Byte) : (respond st r s).Inv :=
  h.update rfl rfl rfl h.memory h.config h.buffersOk h.ctlOk

/-- The events that wait are no part of the invariant. -/
theorem State.Inv.withQueue {s : State} (h : s.Inv) (q : List SieEvent) : (s.withQueue q).Inv :=
  h.update rfl rfl rfl h.memory h.config h.buffersOk h.ctlOk

theorem BusOnly.inv {s t : State} (hb : BusOnly s t) (h : s.Inv) : t.Inv := by
  have ht : ({ t with serial := s.serial } : State).Inv := by
    refine h.update hb.cfg rfl hb.clock ?_ ?_ ?_ ?_
    · show t.mem.wf = true; rw [hb.mem]; exact h.memory
    · show t.dev.config = 0 ∨ _; rw [hb.dev]; exact h.config
    · show BuffersOk _ t.dev.config t.bds t.bin t.bout
      rw [hb.dev, hb.bds, hb.bin, hb.bout]
      exact h.buffersOk
    · show CtlOk t.ctl; rw [hb.ctl]; exact h.ctlOk
  have hidle : t.serial = s.serial := by
    rcases hb.serial with hs | hs
    · exact hs
    · rw [hs, h.busIdle]
  rw [show ({ t with serial := s.serial } : State) = t by rw [← hidle]] at ht
  exact ht

theorem nextTick_lt {c : BitVec 16} (h : c.toNat < 60000) : (nextTick c).toNat < 60000 := by
  unfold nextTick
  split
  · decide
  · next hne =>
    have : c.toNat ≠ 59999 := fun he => hne (BitVec.eq_of_toNat_eq he)
    rw [BitVec.toNat_add]
    show (c.toNat + 1) % 65536 < 60000
    omega

theorem State.Inv.tick {s : State} (h : s.Inv) : (tick s).Inv := { h with clock := nextTick_lt h.clock }

/-! ### The buffers -/

section
variable {cfg : Params} {config : Byte} {bds : Bds} {bin : BulkIn} {bout : BulkOut}

/-- A buffer of the SIE's comes back to the block. -/
theorem BuffersOk.returned (h : BuffersOk cfg config bds bin bout) {b : Buf} (ho : (bds.get b).own = .sie) {n : Nat}
    (hn : n ≤ b.size cfg) : BuffersOk cfg config (bds.set b ⟨.sw, n⟩) bin bout := by
  have hne {c : Buf} (hc : (bds.get c).own = .sw) : c ≠ b := by
    rintro rfl
    rw [hc] at ho
    cases ho
  have howns {c : Buf} (hc : (bds.get c).own = .sw) : ((bds.set b ⟨.sw, n⟩).get c).own = .sw := by
    rw [Bds.get_set_other _ _ (hne hc), hc]
  constructor
  case count =>
    intro c
    rw [Bds.get_set]
    split
    · next hcb => rw [hcb]; exact hn
    · exact h.count c
  case fillOwned => exact fun hf => howns (h.fillOwned hf)
  case fill => exact h.fill
  case idle => exact h.idle
  case idleFill => exact h.idleFill
  case unread =>
    intro hp
    obtain ⟨hu, hc⟩ := h.unread hp
    rw [Bds.get_set_other _ _ (hne hu)]
    exact ⟨hu, hc⟩
  case notConfigured =>
    intro h0
    obtain ⟨hf, hp, hk⟩ := h.notConfigured h0
    exact ⟨hf, hp, fun k => ⟨howns (hk k).1, howns (hk k).2⟩⟩
  case setup =>
    intro hs
    rw [Bds.set_ep0setup] at hs
    have hout := h.setup hs
    rw [Bds.get_set_other _ _ (hne (by rw [hout])), hout]

/-- A bulk buffer in which nothing waits goes to the SIE, in a configured device. -/
theorem BuffersOk.armed (h : BuffersOk cfg config bds bin bout) (hc : config ≠ 0) (b : Buf) (hb : .ep0out ≠ b)
    {n : Nat} (hn : n ≤ b.size cfg) (hin : .bin bin.active = b → bin.fill = 0)
    (hout : .bout bout.active = b → bout.pos = 0) : BuffersOk cfg config (bds.set b ⟨.sie, n⟩) bin bout := by
  constructor
  case count =>
    intro c
    rw [Bds.get_set]
    split
    · next hcb => rw [hcb]; exact hn
    · exact h.count c
  case fillOwned =>
    intro hf
    rw [Bds.get_set_other _ _ (fun he => absurd (hin he) (by omega))]
    exact h.fillOwned hf
  case fill => exact h.fill
  case idle => exact h.idle
  case idleFill => exact h.idleFill
  case unread =>
    intro hp
    rw [Bds.get_set_other _ _ (fun he => absurd (hout he) (by omega))]
    exact h.unread hp
  case notConfigured => exact fun h0 => absurd h0 hc
  case setup =>
    intro hs
    rw [Bds.get_set_other _ _ hb]
    exact h.setup (by rwa [Bds.set_ep0setup] at hs)

/-- The bulk-IN manager starts afresh at a buffer. -/
theorem BuffersOk.binRestarted (h : BuffersOk cfg config bds bin bout) (k : Fin 2) :
    BuffersOk cfg config bds ⟨k, 0, 0⟩ bout :=
  { h with
    fillOwned := fun hf => absurd hf (Nat.lt_irrefl 0)
    fill := cfg.bulkSize.property.1
    idle := cfg.idleFlushPolls.property
    idleFill := fun _ => rfl
    notConfigured := fun h0 => ⟨rfl, (h.notConfigured h0).2⟩ }

/-- The bulk-OUT manager starts afresh at a buffer. -/
theorem BuffersOk.boutRestarted (h : BuffersOk cfg config bds bin bout) (k : Fin 2) :
    BuffersOk cfg config bds bin ⟨k, 0⟩ :=
  { h with
    unread := fun hp => absurd hp (Nat.lt_irrefl 0)
    notConfigured := fun h0 => ⟨(h.notConfigured h0).1, rfl, (h.notConfigured h0).2.2⟩ }

theorem BuffersOk.handedOver (h : BuffersOk cfg config bds bin bout) (hc : config ≠ 0) {n : Nat}
    (hn : n ≤ cfg.bulkSize.val) :
    BuffersOk cfg config (bds.set (.bin bin.active) ⟨.sie, n⟩) ⟨1 - bin.active, 0, 0⟩ bout :=
  (h.binRestarted _).armed hc (.bin bin.active) nofun hn (fun _ => rfl) nofun

theorem BuffersOk.passedOn (h : BuffersOk cfg config bds bin bout) (hc : config ≠ 0) :
    BuffersOk cfg config (bds.set (.bout bout.active) ⟨.sie, cfg.bulkSize.val⟩) bin ⟨1 - bout.active, 0⟩ :=
  (h.boutRestarted _).armed hc (.bout bout.active) nofun (Nat.le_refl _) nofun fun _ => rfl

theorem BuffersOk.counted (h : BuffersOk cfg config bds bin bout) {i : Nat} (hi : i < cfg.idleFlushPolls.val)
    (h0 : bin.fill = 0 → i = 0) : BuffersOk cfg config bds { bin with idle := i } bout :=
  { h with idle := hi, idleFill := h0 }

theorem BuffersOk.filled (h : BuffersOk cfg config bds bin bout) (hc : config ≠ 0)
    (ho : (bds.get (.bin bin.active)).own = .sw) {n : Nat} (hn : n + 1 < cfg.bulkSize.val) :
    BuffersOk cfg config bds { bin with fill := n + 1, idle := 0 } bout :=
  { h with
    fillOwned := fun _ => ho
    fill := hn
    idle := cfg.idleFlushPolls.property
    idleFill := fun _ => rfl
    notConfigured := fun h0 => absurd h0 hc }

theorem BuffersOk.taken (h : BuffersOk cfg config bds bin bout) (hc : config ≠ 0)
    (ho : (bds.get (.bout bout.active)).own = .sw) {p : Nat} (hp : p < (bds.get (.bout bout.active)).count) :
    BuffersOk cfg config bds bin ⟨bout.active, p⟩ :=
  { h with
    unread := fun _ => ⟨ho, hp⟩
    notConfigured := fun h0 => absurd h0 hc }

/-- The descriptors of endpoint 0 may hold any count that their buffers have room for, and the mark of a SETUP packet
where the OUT buffer has 8 bytes of the block's. -/
theorem BuffersOk.ep0 (h : BuffersOk cfg config bds bin bout) {x y : Bd} {v : Bool}
    (hx : x.count ≤ cfg.ep0Size.bytes) (hy : y.count ≤ cfg.ep0Size.bytes) (hv : v = true → x = ⟨.sw, 8⟩) :
    BuffersOk cfg config { bds with ep0out := x, ep0setup := v, ep0in := y } bin bout := by
  have hin (k : Fin 2) : ({ bds with ep0out := x, ep0setup := v, ep0in := y } : Bds).get (.bin k) =
      bds.get (.bin k) := match k with
    | 0 => rfl
    | 1 => rfl
  have hout (k : Fin 2) : ({ bds with ep0out := x, ep0setup := v, ep0in := y } : Bds).get (.bout k) =
      bds.get (.bout k) := match k with
    | 0 => rfl
    | 1 => rfl
  constructor
  case count =>
    intro b
    cases b with
    | ep0out => exact hx
    | ep0in => exact hy
    | bin k => rw [hin]; exact h.count (.bin k)
    | bout k => rw [hout]; exact h.count (.bout k)
  case fillOwned => rw [hin]; exact h.fillOwned
  case fill => exact h.fill
  case idle => exact h.idle
  case idleFill => exact h.idleFill
  case unread => rw [hout]; exact h.unread
  case notConfigured => simpa only [hin, hout] using h.notConfigured
  case setup => exact hv

theorem BuffersOk.ep0in (h : BuffersOk cfg config bds bin bout) (x : Bd) (hx : x.count ≤ cfg.ep0Size.bytes) :
    BuffersOk cfg config { bds with ep0in := x } bin bout :=
  h.ep0 (h.count .ep0out) hx h.setup

theorem BuffersOk.ep0out (h : BuffersOk cfg config bds bin bout) (v : Bool) (x : Bd)
    (hx : x.count ≤ cfg.ep0Size.bytes) (hv : v = true → x = ⟨.sw, 8⟩) :
    BuffersOk cfg config { bds with ep0out := x, ep0setup := v } bin bout :=
  h.ep0 hx (h.count .ep0in) hv

/-- `BulkReset` takes back every bulk descriptor, whatever the configuration is or becomes. -/
theorem BuffersOk.takenBack (h : BuffersOk cfg config bds bin bout) (config' : Byte) :
    BuffersOk cfg config' { bds with bin0 := ⟨.sw, 0⟩, bin1 := ⟨.sw, 0⟩, bout0 := ⟨.sw, 0⟩, bout1 := ⟨.sw, 0⟩ }
      ⟨0, 0, 0⟩ ⟨0, 0⟩ where
  count
    | .ep0out => h.count .ep0out
    | .ep0in => h.count .ep0in
    | .bin 0 => Nat.zero_le _
    | .bin 1 => Nat.zero_le _
    | .bout 0 => Nat.zero_le _
    | .bout 1 => Nat.zero_le _
  fillOwned hf := absurd hf (Nat.lt_irrefl 0)
  fill := cfg.bulkSize.property.1
  idle := cfg.idleFlushPolls.property
  idleFill _ := rfl
  unread hp := absurd hp (Nat.lt_irrefl 0)
  notConfigured _ := ⟨rfl, rfl, fun k => match k with
    | 0 => ⟨rfl, rfl⟩
    | 1 => ⟨rfl, rfl⟩⟩
  setup := h.setup

end

/-! ### The bulk manager -/

theorem BulkAct.mem_wf {s t : State} (h : BulkAct s t) (hm : s.mem.wf = true) : t.mem.wf = true := by
  cases h with
  | appends b hc ho hf => exact Memory.wf_write _ _ hm
  | fills b hc ho hf => exact Memory.wf_write _ _ hm
  | _ => exact hm

theorem BulkAct.buffersOk {s t : State} (h : BulkAct s t) (hb : BuffersOk s.cfg s.dev.config s.bds s.bin s.bout) :
    BuffersOk s.cfg s.dev.config t.bds t.bin t.bout := by
  cases h with
  | rests => exact hb
  | draws n => exact hb
  | counts i hi h0 => exact hb.counted hi h0
  | appends b hc ho hf => exact hb.filled hc ho hf
  | fills b hc ho hf => exact hb.handedOver hc (Nat.le_of_eq hf)
  | flushes hf ho =>
    have hc : s.dev.config ≠ 0 := fun h0 => by
      have := (hb.notConfigured h0).1
      omega
    exact hb.handedOver hc (Nat.le_of_lt hb.fill)
  | takes ho hp hc => exact hb.taken hc ho hp
  | passes hc ho => exact hb.passedOn hc

theorem BulkAct.inv {s t : State} (h : BulkAct s t) (hi : s.Inv) : t.Inv := by
  have hcan := h.sameCan
  have hctl := h.sameControl
  refine hi.update hcan.cfg hcan.serial hcan.clock (h.mem_wf hi.memory) ?_ ?_ ?_
  · rw [hctl.dev]; exact hi.config
  · rw [hctl.dev]; exact h.buffersOk hi.buffersOk
  · rw [hctl.ctl]; exact hi.ctlOk

/-! ### The control state -/

theorem CtlOk.idle (b : Bool) : CtlOk (idleCtl b) :=
  ⟨fun h => congrArg idleCtl h, ⟨nofun, nofun⟩, nofun⟩

theorem CtlOk.transferring {x : Xfer} (hx : XferOk x) : CtlOk { idleCtl false with xfer := some x } :=
  ⟨nofun, ⟨nofun, nofun⟩, fun _ h => Option.some.inj h ▸ hx⟩

theorem CtlOk.addressing (a : BitVec 7) : CtlOk { idleCtl false with pendingAddr := some a } :=
  ⟨nofun, ⟨fun _ => ⟨rfl, rfl⟩, nofun⟩, nofun⟩

theorem CtlOk.awaiting : CtlOk { idleCtl false with lcPending := true } :=
  ⟨nofun, ⟨nofun, fun _ => rfl⟩, nofun⟩

section
variable {ctl : Ctl}

/-- With no address pending, a transfer in progress is all that is in progress. -/
theorem CtlOk.eq_of_xfer (h : CtlOk ctl) (x : Xfer) (hx : ctl.xfer = some x) :
    ctl = { idleCtl false with xfer := some x } := by
  obtain ⟨pendingAddr, lcPending, xfer, stall⟩ := ctl
  obtain ⟨hst, ⟨hp, hl⟩, -⟩ := h
  simp only at hx hst hp hl
  subst hx
  have hstall : stall = false := by
    cases stall with
    | false => rfl
    | true => cases hst rfl
  have haddr : pendingAddr = none := by
    cases pendingAddr with
    | none => rfl
    | some a => cases (hp rfl).2
  have hlc : lcPending = false := by
    cases lcPending with
    | false => rfl
    | true => cases hl rfl
  rw [hstall, haddr, hlc]
  rfl

theorem CtlOk.received (h : CtlOk ctl) : CtlOk { ctl with lcPending := false } where
  stalled hs := by rw [h.stalled hs]; rfl
  oneStage := ⟨fun ha => ⟨rfl, (h.oneStage.1 ha).2⟩, nofun⟩
  transfer := h.transfer

theorem CtlOk.ended (h : CtlOk ctl) : CtlOk { ctl with xfer := none } where
  stalled hs := by rw [h.stalled hs]; rfl
  oneStage := ⟨fun ha => ⟨(h.oneStage.1 ha).1, rfl⟩, fun _ => rfl⟩
  transfer := nofun

theorem CtlOk.addressed (h : CtlOk ctl) : CtlOk { ctl with pendingAddr := none } where
  stalled hs := by rw [h.stalled hs]; rfl
  oneStage := ⟨nofun, h.oneStage.2⟩
  transfer := h.transfer

end

theorem newXfer_ok (cfg : Params) (data : List Byte) (wLength : Half) (subst : Bool) :
    XferOk (newXfer cfg data wLength subst) := by
  have := wLength.isLt
  simp only [XferOk, newXfer]
  omega

/-- Sending a packet moves bytes from the rest to what is sent. -/
theorem XferOk.sent {x : Xfer} (h : XferOk x) (k : Nat) (hk : k ≤ x.rem) :
    XferOk { x with off := x.off + k, rem := x.rem - k } := by
  obtain ⟨h1, h2⟩ := h
  simp only [XferOk]
  omega

/-! ### Endpoint 0 -/

theorem State.Inv.leaveStall {s : State} (h : s.Inv) : (leaveStall s).Inv :=
  h.update rfl rfl rfl h.memory h.config h.buffersOk (.idle false)

theorem State.Inv.rearmed {s : State} (h : s.Inv) : (rearmed s).Inv :=
  h.update rfl rfl rfl h.memory h.config (h.buffersOk.ep0out false _ (Nat.le_refl _) nofun) h.ctlOk

theorem State.Inv.armedEp0in {s : State} (h : s.Inv) : (s.setBd .ep0in ⟨.sie, 0⟩).Inv :=
  h.update rfl rfl rfl h.memory h.config (h.buffersOk.ep0in _ (Nat.zero_le _)) h.ctlOk

theorem State.Inv.withCtl {s : State} (h : s.Inv) {c : Ctl} (hc : CtlOk c) : ({ s with ctl := c } : State).Inv :=
  h.update rfl rfl rfl h.memory h.config h.buffersOk hc

/-- Of the device record the invariant speaks of the configuration only. -/
theorem State.Inv.withDev {s : State} (h : s.Inv) (d : Dev) (hd : d.config = s.dev.config) :
    ({ s with dev := d } : State).Inv :=
  h.update rfl rfl rfl h.memory (hd ▸ h.config) (hd ▸ h.buffersOk) h.ctlOk

theorem State.Inv.setHalt {s : State} (h : s.Inv) (e : Endpoint) (v : Bool) : (setHalt e v s).Inv := h.withDev _ rfl

theorem State.Inv.toggleReset {s : State} (h : s.Inv) (e : Endpoint) : (toggleReset e s).Inv :=
  h.update rfl rfl rfl h.memory h.config h.buffersOk h.ctlOk

theorem State.Inv.chunkSent {s : State} (h : s.Inv) {x : Xfer} (hx : XferOk x)
    (hc : ∃ y, s.ctl = { idleCtl false with xfer := y }) : (chunkSent x s).Inv := by
  refine h.update rfl rfl rfl (Memory.wf_writeList _ _ h.memory) h.config
    (h.buffersOk.ep0in _ (Nat.min_le_left _ _)) ?_
  obtain ⟨y, hy⟩ := hc
  simp only [Machine.chunkSent, hy]
  exact .transferring (hx.sent _ (Nat.min_le_right _ _))

/-- `BulkReset` leaves the invariant whatever the legal configuration that comes with it. -/
theorem State.Inv.bulkReset {s u : State} (h : s.Inv) {c : Byte} (hc : c = 0 ∨ c = s.cfg.configValue)
    (hu : bulkReset (c != 0) (clearEndpoints { s with dev := { s.dev with config := c } }) = .next u) : u.Inv := by
  have htaken := h.buffersOk.takenBack c
  have hback : (bulkTakeBack (clearEndpoints { s with dev := { s.dev with config := c } })).Inv :=
    h.update rfl rfl rfl h.memory hc htaken h.ctlOk
  rw [bulkReset_eq, Host.Outcome.next.injEq] at hu
  subst hu
  split
  · next h0 =>
    have h0 : c ≠ 0 := by simpa using h0
    exact hback.update rfl rfl rfl h.memory hc
      ((htaken.armed h0 (.bout 0) nofun (Nat.le_refl _) nofun fun _ => rfl).armed h0 (.bout 1) nofun
        (Nat.le_refl _) nofun fun _ => rfl) h.ctlOk
  · exact hback

/-- Every USB control request keeps the invariant in the control state that its SETUP prologue leaves. -/
theorem SetupOutcome.inv {s t : State} (ho : SetupOutcome s t) (h : s.Inv) (hc : s.ctl = idleCtl false) : t.Inv := by
  cases ho with
  | stalls => exact h.withCtl (.idle true)
  | replies data wLength subst ho => exact h.chunkSent (newXfer_ok _ _ _ _) ⟨none, hc⟩
  | acknowledges ho => exact h.armedEp0in
  | setsHalt e ho => exact (h.setHalt e true).armedEp0in
  | clearsHalt e ho => exact ((h.setHalt e false).toggleReset e).armedEp0in
  | setsAddress a ho => rw [hc]; exact (h.withCtl (.addressing a)).armedEp0in
  | configures c hv u hu ho => exact (h.bulkReset hv hu).armedEp0in
  | awaitsLineCoding => rw [hc]; exact h.withCtl .awaiting

/-- A bus reset brings endpoint 0 and the bulk endpoints back to where they began. -/
theorem State.Inv.busReset {s : State} (h : s.Inv) : (bulkTakeBack (busResetTaken s)).Inv :=
  h.update rfl rfl rfl h.memory (.inl rfl)
    (((h.buffersOk.ep0in ⟨.sw, 0⟩ (Nat.zero_le _)).ep0out false ⟨.sie, s.cfg.ep0Size.bytes⟩ (Nat.le_refl _)
      nofun).takenBack 0) (.idle false)

theorem EventOutcome.inv {s t : State} {ev : SieEvent} (ho : EventOutcome s ev t) (h : s.Inv) : t.Inv := by
  cases ho with
  | nothing _ _ => exact h
  | resets => exact h.busReset
  | setup hs u hu => exact (hu.inv h.leaveStall rfl).rearmed
  | lineCoding hl lc =>
    exact ((h.withCtl h.ctlOk.received).withDev { s.dev with lineCoding := lc } rfl).armedEp0in.rearmed
  | status hl => exact (h.withCtl h.ctlOk.ended).rearmed
  | address a ha =>
    exact (h.withCtl h.ctlOk.addressed).withDev { s.dev with addr := a } rfl
  | chunk ha x hx => exact h.chunkSent (h.transfer x hx) ⟨_, h.ctlOk.eq_of_xfer x hx⟩
  | zeroLength x hx =>
    rw [h.ctlOk.eq_of_xfer x hx]
    exact h.armedEp0in.withCtl (.transferring (x := { x with zlpDue := false }) (h.transfer x hx))
  | ends => exact h.withCtl h.ctlOk.ended

/-! ### The SIE -/

/-- A token keeps the invariant when what it does to memory and the descriptors does. -/
theorem State.Inv.sieOnly {s t : State} (h : s.Inv) (ho : SieOnly s t) (hm : t.mem.wf = true)
    (hb : BuffersOk s.cfg s.dev.config t.bds s.bin s.bout) : t.Inv := by
  refine h.update ho.cfg ho.serial ho.clock hm ?_ ?_ ?_
  · rw [ho.dev]; exact h.config
  · rw [ho.dev, ho.bin, ho.bout]; exact hb
  · rw [ho.ctl]; exact h.ctlOk

theorem State.Inv.giveUp {s : State} (h : s.Inv) (b : Buf) : (giveUp b s).Inv := by
  by_cases ho : (s.bd b).own = .sw
  · rw [giveUp_of_sw ho]; exact h
  · have ho : (s.bd b).own = .sie := Owner.ne_sw.mp ho
    have hn : (if b.isOut then 0 else (s.bd b).count) ≤ b.size s.cfg := by
      split
      · exact Nat.zero_le _
      · exact h.count b
    refine h.update rfl rfl rfl h.memory h.config ?_ h.ctlOk
    rw [giveUp_bds, Bd.givenUp, if_pos ho]
    exact h.buffersOk.returned ho hn

theorem State.Inv.giveUpAll {s : State} (h : s.Inv) : (giveUpAll s).Inv :=
  (((((h.giveUp _).giveUp _).giveUp _).giveUp _).giveUp _).giveUp _

theorem State.Inv.redeliver {s : State} (h : s.Inv) : (redeliver s).Inv := by
  rcases redeliver_cases s with ⟨-, hr⟩ | ⟨-, -, hr⟩
  · rw [hr]; exact h
  · rw [hr]
    exact h.update rfl rfl rfl h.memory h.config
      (h.buffersOk.ep0out true _ (eight_le_ep0Size_bytes _) fun _ => rfl) h.ctlOk

theorem State.Inv.sieSettle {s : State} (h : s.Inv) : (sieSettle s).Inv :=
  sieSettle_induction h (fun h => h.redeliver) fun b _ h => h.giveUp b

theorem TokenOutcome.inv {s t : State} {k : Token} (ho : TokenOutcome s k t) (h : s.Inv) : t.Inv := by
  have hsie := ho.sieOnly
  cases ho with
  | answers _ a => exact h.sieOnly hsie h.memory h.buffersOk
  | resets =>
    refine h.sieOnly hsie ?_ ?_
    · simpa [sieBusReset] using h.memory
    · simpa [sieBusReset] using h.giveUpAll.buffersOk
  | setup p =>
    refine h.sieOnly hsie (Memory.wf_writeList _ _ h.memory) ?_
    rw [sieSetup_bds]
    exact h.buffersOk.ep0 (eight_le_ep0Size_bytes _) (h.count .ep0in) fun _ => rfl
  | sends0 _ ho => exact h.sieOnly hsie h.memory (h.buffersOk.returned ho (h.count _))
  | receives0 _ data ho hl =>
    exact h.sieOnly hsie (Memory.wf_writeList _ _ h.memory) (h.buffersOk.returned ho hl)
  | sendsBulk _ ho => exact h.sieOnly hsie h.memory (h.buffersOk.returned ho (h.count _))
  | receivesBulk _ data ho hl =>
    exact h.sieOnly hsie (Memory.wf_writeList _ _ h.memory) (h.buffersOk.returned ho hl)

/-! ### The step -/

theorem StepOutcome.inv {s t : State} (ho : StepOutcome s t) (h : s.Inv) : t.Inv := by
  cases ho with
  | poll rest hb hi u v w hu hv hw =>
    have hacc : (s.accept rest).Inv := h.accept rest s.bench
    have hui : u.Inv := by
      rcases hu with rfl | ⟨ev, q, -, hu⟩
      · exact hacc
      · exact hu.inv (hacc.withQueue q)
    exact (hw.inv (hv.inv hui)).respond _ _
  | bulk rest st r u hu => exact (hu.inv (h.accept rest s.bench)).respond st r
  | bus rest b u hu => exact hu.inv (h.accept rest b)
  | token rest k => exact (sieToken_outcome k _).inv (h.accept rest s.bench)
  | tick rest => exact (h.accept rest s.bench).tick

theorem StepOutcome.cfg {s t : State} (ho : StepOutcome s t) : t.cfg = s.cfg := by
  cases ho with
  | poll rest hb hi u v w hu hv hw =>
    have hu : u.cfg = s.cfg := (sameCan_of_event (s := s.accept rest) hu).cfg
    exact (hw.sameCan.cfg.trans hv.sameCan.cfg).trans hu
  | bulk rest st r u hu => exact hu.sameCan.cfg
  | bus rest b u hu => exact hu.cfg
  | token rest k => exact sieToken_cfg k _
  | tick rest => rfl

/-- Settles O10: each of the outcomes of a step keeps the invariant, and so does the settling of the SIE after it. -/
theorem stepKeepsTheInvariant : Obligations.StepKeepsTheInvariant := by
  intro s t h hstep
  rcases step_outcome hstep with rfl | ⟨u, hu, rfl⟩
  · exact ⟨h, rfl⟩
  · exact ⟨(hu.inv h).sieSettle, by rw [sieSettle_cfg, hu.cfg]⟩

end Sys2Proof.Machine
end

section
/-! PROOF. Every step keeps the block and the SIE alternating the bulk buffers together (O11): the bulk manager gives its
active buffer away and turns to the other, the SIE gives its next buffer back and turns to the other, and `BulkReset`
begins again. -/

namespace Sys2Proof.Machine

/-! ### The alternation of one endpoint -/

theorem other_other (a : Fin 2) : 1 - (1 - a) = a := by
  match a with
  | 0 => rfl
  | 1 => rfl

theorem other_ne (a : Fin 2) : 1 - a ≠ a := by
  match a with
  | 0 => decide
  | 1 => decide

section
variable {active next : Fin 2} {own own' : Fin 2 → Owner}

/-- The block arms its active buffer and turns to the other. -/
theorem Alternates.armed (h : Alternates active next own) (ho : own active = .sw) (ha : own' active = .sie)
    (hother : own' (1 - active) = own (1 - active)) : Alternates (1 - active) next own' := by
  obtain ⟨hsame, hdiff⟩ := h
  unfold Alternates
  rw [other_other, ha, hother]
  cases hx : own (1 - active) with
  | sw => exact ⟨nofun, fun _ => ⟨rfl, hsame (ho.trans hx.symm)⟩⟩
  | sie => exact ⟨fun _ => (hdiff (by rw [ho, hx]; nofun)).2, fun hne => absurd rfl hne⟩

/-- The SIE gives its next buffer back and turns to the other. -/
theorem Alternates.returned (h : Alternates active next own) (ho : own next = .sie) (hn : own' next = .sw)
    (hother : own' (1 - next) = own (1 - next)) : Alternates active (1 - next) own' := by
  obtain ⟨hsame, hdiff⟩ := h
  by_cases heq : own active = own (1 - active)
  · obtain rfl := hsame heq
    exact ⟨fun he => absurd (hn.symm.trans (he.trans (hother.trans (heq.symm.trans ho)))) nofun,
      fun _ => ⟨hn, rfl⟩⟩
  · obtain ⟨hsw, rfl⟩ := hdiff heq
    rw [other_other] at hother ⊢
    exact ⟨fun _ => rfl, fun hne => absurd (hother.trans (hsw.trans hn.symm)) hne⟩

/-- With both buffers in the same hands the alternation may begin at either. -/
theorem Alternates.begins (k : Fin 2) (h : ∀ j, own j = own k) : Alternates k k own :=
  ⟨fun _ => rfl, fun hne => absurd (h (1 - k)).symm hne⟩

end

/-! ### What leaves the alternation as it is -/

/-- The bulk endpoints are as they were, and a bus reset that waits still does. -/
structure SameBulk (s t : State) : Prop where
  bin : t.bin = s.bin
  bout : t.bout = s.bout
  nextIn : t.sie.nextIn = s.sie.nextIn
  nextOut : t.sie.nextOut = s.sie.nextOut
  bdBin : ∀ k, t.bd (.bin k) = s.bd (.bin k)
  bdBout : ∀ k, t.bd (.bout k) = s.bd (.bout k)
  reset : .busReset ∈ s.sie.queue → .busReset ∈ t.sie.queue

theorem SameBulk.trans {s t u : State} (h : SameBulk s t) (k : SameBulk t u) : SameBulk s u where
  bin := k.bin.trans h.bin
  bout := k.bout.trans h.bout
  nextIn := k.nextIn.trans h.nextIn
  nextOut := k.nextOut.trans h.nextOut
  bdBin j := (k.bdBin j).trans (h.bdBin j)
  bdBout j := (k.bdBout j).trans (h.bdBout j)
  reset hq := k.reset (h.reset hq)

/-- The fields that are no part of the bulk endpoints. -/
theorem SameBulk.updates (s : State) {dev : Dev} {ctl : Ctl} {mem : Memory} {clock : BitVec 16} {inputs : List Input}
    {bench : Option (List Byte)} {response : Option Response} {txns : List SerialTxn} {pulses : List Pulse}
    {answer : Option Answer} {toggles : Toggles} :
    SameBulk s { s with
      dev := dev, ctl := ctl, mem := mem, clock := clock, inputs := inputs, bench := bench, response := response,
      txns := txns, pulses := pulses, answer := answer, sie := { s.sie with toggles := toggles } } :=
  ⟨rfl, rfl, rfl, rfl, fun _ => rfl, fun _ => rfl, id⟩

/-- The descriptors of endpoint 0 are no part of the bulk endpoints. -/
theorem SameBulk.ep0 (s : State) {x y : Bd} {v : Bool} :
    SameBulk s { s with bds := { s.bds with ep0out := x, ep0setup := v, ep0in := y } } where
  bin := rfl
  bout := rfl
  nextIn := rfl
  nextOut := rfl
  bdBin k := match k with
    | 0 => rfl
    | 1 => rfl
  bdBout k := match k with
    | 0 => rfl
    | 1 => rfl
  reset := id

theorem SameBulk.armedEp0in (s : State) : SameBulk s (s.setBd .ep0in ⟨.sie, 0⟩) := .ep0 s

theorem SameBulk.post (s : State) (ev : SieEvent) : SameBulk s (post ev s) :=
  ⟨rfl, rfl, rfl, rfl, fun _ => rfl, fun _ => rfl, List.mem_append_left _⟩

theorem SameBulk.pingPong {s t : State} (h : SameBulk s t) (hp : s.PingPong) : t.PingPong := by
  unfold State.PingPong
  simp only [h.bin, h.bout, h.nextIn, h.nextOut, h.bdBin, h.bdBout]
  exact hp

theorem SameBulk.inStep {s t : State} (h : SameBulk s t) (hi : s.InStep) : t.InStep := by
  rcases hi with hr | hp
  · exact .inl (State.resetWaits_eq_true.mpr (h.reset (State.resetWaits_eq_true.mp hr)))
  · exact .inr (h.pingPong hp)

theorem BusOnly.sameBulk {s t : State} (h : BusOnly s t) : SameBulk s t where
  bin := h.bin
  bout := h.bout
  nextIn := by rw [h.sie]
  nextOut := by rw [h.sie]
  bdBin k := State.bd_congr h.bds _
  bdBout k := State.bd_congr h.bds _
  reset := by rw [h.sie]; exact id

/-! ### The bulk manager -/

theorem handedOver_pingPong {s : State} (ho : (s.bd (.bin s.bin.active)).own = .sw) (h : s.PingPong) :
    (handedOver s).PingPong := by
  have hbd (c : Buf) : (handedOver s).bd c = if c = .bin s.bin.active then ⟨.sie, s.bin.fill⟩ else s.bd c :=
    State.bd_setBd s _ c _
  obtain ⟨hin, hout⟩ := h
  refine ⟨hin.armed ho ?_ ?_, ?_⟩
  · rw [hbd, if_pos rfl]
  · rw [hbd, if_neg (by simpa using other_ne _)]
  · simp only [hbd, reduceCtorEq, if_false]; exact hout

theorem passedOn_pingPong {s : State} (ho : (s.bd (.bout s.bout.active)).own = .sw) (h : s.PingPong) :
    (passedOn s).PingPong := by
  have hbd (c : Buf) :
      (passedOn s).bd c = if c = .bout s.bout.active then ⟨.sie, s.cfg.bulkSize.val⟩ else s.bd c :=
    State.bd_setBd s _ c _
  obtain ⟨hin, hout⟩ := h
  refine ⟨?_, hout.armed ho ?_ ?_⟩
  · simp only [hbd, reduceCtorEq, if_false]; exact hin
  · rw [hbd, if_pos rfl]
  · rw [hbd, if_neg (by simpa using other_ne _)]

theorem BulkAct.pingPong {s t : State} (h : BulkAct s t) (hp : s.PingPong) : t.PingPong := by
  cases h with
  | fills b hc ho hf => exact handedOver_pingPong (s := appended b s) ho hp
  | flushes hf ho => exact handedOver_pingPong ho hp
  | passes hc ho => exact passedOn_pingPong ho hp
  | _ => exact hp

theorem BulkAct.inStep {s t : State} (h : BulkAct s t) (hi : s.InStep) : t.InStep := by
  rcases hi with hr | hp
  · exact .inl (by rw [State.resetWaits, h.sameControl.queue]; exact hr)
  · exact .inr (h.pingPong hp)

/-- `BulkReset` begins the alternation again, with all buffers the block's or with the OUT buffers armed. -/
theorem bulkReset_pingPong {c : Bool} {s u : State} (h : bulkReset c s = .next u) : u.PingPong := by
  rw [bulkReset_eq, Host.Outcome.next.injEq] at h
  subst h
  have hall (own : Fin 2 → Owner) (h : own 1 = own 0) : ∀ j, own j = own 0
    | 0 => rfl
    | 1 => h
  split
  · exact ⟨Alternates.begins 0 (hall _ rfl), Alternates.begins 0 (hall _ rfl)⟩
  · exact ⟨Alternates.begins 0 (hall _ rfl), Alternates.begins 0 (hall _ rfl)⟩

/-! ### Requests and events -/

theorem SetupOutcome.inStep {s t : State} (h : SetupOutcome s t) (hi : s.InStep) : t.InStep := by
  cases h with
  | stalls => exact (SameBulk.updates s).inStep hi
  | replies data wLength subst ho =>
    exact ((SameBulk.updates s).trans (.ep0 _)).inStep hi
  | acknowledges ho => exact (SameBulk.armedEp0in s).inStep hi
  | setsHalt e ho => exact ((SameBulk.updates s).trans (.armedEp0in _)).inStep hi
  | clearsHalt e ho => exact ((SameBulk.updates s).trans (.armedEp0in _)).inStep hi
  | setsAddress a ho => exact ((SameBulk.updates s).trans (.armedEp0in _)).inStep hi
  | configures c hc u hu ho => exact .inr ((SameBulk.armedEp0in u).pingPong (bulkReset_pingPong hu))
  | awaitsLineCoding => exact (SameBulk.updates s).inStep hi

theorem SameBulk.rearmed (s : State) : SameBulk s (rearmed s) := .ep0 s

theorem EventOutcome.inStep {s t : State} {ev : SieEvent} (h : EventOutcome s ev t)
    (hi : ev ≠ .busReset → s.InStep) : t.InStep := by
  cases h with
  | nothing _ h => exact hi h
  | resets => exact .inr (bulkReset_pingPong (c := false) rfl)
  | setup hs u hu =>
    have hl : (leaveStall s).InStep := (SameBulk.updates s).inStep (hi nofun)
    exact (SameBulk.rearmed u).inStep (hu.inStep hl)
  | lineCoding hl lc =>
    exact (((SameBulk.updates s).trans (.armedEp0in _)).trans (.rearmed _)).inStep (hi nofun)
  | status hl => exact ((SameBulk.updates s).trans (.rearmed _)).inStep (hi nofun)
  | address a ha => exact (SameBulk.updates s).inStep (hi nofun)
  | chunk ha x hx => exact ((SameBulk.updates s).trans (.ep0 _)).inStep (hi nofun)
  | zeroLength x hx => exact ((SameBulk.armedEp0in s).trans (.updates _)).inStep (hi nofun)
  | ends => exact (SameBulk.updates s).inStep (hi nofun)

/-- Taking an event that is no bus reset leaves a bus reset waiting that does. -/
theorem State.InStep.withQueue {s : State} {ev : SieEvent} {q : List SieEvent} (h : s.InStep)
    (hq : s.sie.queue = ev :: q) (hne : ev ≠ .busReset) : (s.withQueue q).InStep := by
  rcases h with hr | hp
  · refine .inl (State.resetWaits_eq_true.mpr ?_)
    have := State.resetWaits_eq_true.mp hr
    rw [hq] at this
    exact (List.mem_cons.mp this).resolve_left (Ne.symm hne)
  · exact .inr hp

/-! ### The SIE -/

theorem bulkInSent_pingPong {s : State} (ho : (s.bd (.bin s.sie.nextIn)).own = .sie) (h : s.PingPong) :
    (bulkInSent s).PingPong := by
  have hbd (c : Buf) : (bulkInSent s).bd c =
      if c = .bin s.sie.nextIn then { s.bd (.bin s.sie.nextIn) with own := .sw } else s.bd c :=
    State.bd_setBd s _ c _
  obtain ⟨hin, hout⟩ := h
  refine ⟨hin.returned ho ?_ ?_, ?_⟩
  · rw [hbd, if_pos rfl]
  · rw [hbd, if_neg (by simpa using other_ne _)]
  · simp only [hbd, reduceCtorEq, if_false]; exact hout

theorem bulkOutReceived_pingPong {data : List Byte} {s : State} (ho : (s.bd (.bout s.sie.nextOut)).own = .sie)
    (h : s.PingPong) : (bulkOutReceived data s).PingPong := by
  have hbd (c : Buf) : (bulkOutReceived data s).bd c =
      if c = .bout s.sie.nextOut then ⟨.sw, data.length⟩ else s.bd c :=
    State.bd_setBd s _ c _
  obtain ⟨hin, hout⟩ := h
  refine ⟨?_, hout.returned ho ?_ ?_⟩
  · simp only [hbd, reduceCtorEq, if_false]; exact hin
  · rw [hbd, if_pos rfl]
  · rw [hbd, if_neg (by simpa using other_ne _)]

/-- A transaction appends an event, so that a bus reset that waits still does. -/
theorem State.InStep.appended {s t : State} {ev : SieEvent} (h : s.InStep) (hq : t.sie.queue = s.sie.queue ++ [ev])
    (hp : s.PingPong → t.PingPong) : t.InStep := by
  rcases h with hr | h
  · refine .inl (State.resetWaits_eq_true.mpr ?_)
    rw [hq]
    exact List.mem_append_left _ (State.resetWaits_eq_true.mp hr)
  · exact .inr (hp h)

theorem sieSetup_sameBulk (p : Vector Byte 8) (s : State) : SameBulk s (sieSetup p s) :=
  ⟨rfl, rfl, rfl, rfl, sieSetup_bdBin p s, sieSetup_bdBout p s, List.mem_append_left _⟩

theorem TokenOutcome.inStep {s t : State} {k : Token} (h : TokenOutcome s k t) (hi : s.InStep) : t.InStep := by
  cases h with
  | answers _ a => exact (SameBulk.updates s).inStep hi
  | resets => exact .inl (State.resetWaits_eq_true.mpr (List.mem_append_right _ (List.mem_singleton.mpr rfl)))
  | setup p => exact (sieSetup_sameBulk p s).inStep hi
  | sends0 _ ho =>
    exact (((SameBulk.ep0 s).trans (.updates _)).trans (.post _ .doneEp0in)).inStep hi
  | receives0 _ data ho hl =>
    exact (((SameBulk.ep0 s).trans (.updates _)).trans (.post _ .doneEp0out)).inStep hi
  | sendsBulk _ ho => exact hi.appended rfl (bulkInSent_pingPong ho)
  | receivesBulk _ data ho hl => exact hi.appended rfl (bulkOutReceived_pingPong ho)

theorem State.InStep.sieSettle {s : State} (h : s.InStep) : (sieSettle s).InStep := by
  by_cases hr : s.resetWaits = true
  · exact .inl (by rw [State.resetWaits, sieSettle_sie]; exact hr)
  · have hr : s.resetWaits = false := by simpa using hr
    have hsame : SameBulk s (Machine.sieSettle s) :=
      ⟨sieSettle_bin s, sieSettle_bout s, by rw [sieSettle_sie], by rw [sieSettle_sie],
        fun _ => sieSettle_bd_of_bulk hr nofun nofun, fun _ => sieSettle_bd_of_bulk hr nofun nofun,
        by rw [sieSettle_sie]; exact id⟩
    exact hsame.inStep h

/-! ### The step -/

theorem State.InStep.accept {s : State} (h : s.InStep) (rest : List Input) (b : Option (List Byte)) :
    ({ s.accept rest with bench := b } : State).InStep :=
  (SameBulk.updates s).inStep h

theorem StepOutcome.inStep {s t : State} (ho : StepOutcome s t) (h : s.InStep) : t.InStep := by
  cases ho with
  | poll rest hb hi u v w hu hv hw =>
    have hacc : (s.accept rest).InStep := h.accept rest s.bench
    have hui : u.InStep := by
      rcases hu with rfl | ⟨ev, q, hq, hu⟩
      · exact hacc
      · exact hu.inStep fun hne => hacc.withQueue hq hne
    exact (SameBulk.updates w).inStep (hw.inStep (hv.inStep hui))
  | bulk rest st r u hu =>
    exact (SameBulk.updates u).inStep (hu.inStep (h.accept rest s.bench))
  | bus rest b u hu => exact hu.sameBulk.inStep (h.accept rest b)
  | token rest k => exact (sieToken_outcome k _).inStep (h.accept rest s.bench)
  | tick rest => exact (SameBulk.updates _).inStep (h.accept rest s.bench)

/-- Settles O11: each of the outcomes of a step keeps the alternation, and so does the settling of the SIE after it. -/
theorem stepKeepsTheAlternation : Obligations.StepKeepsTheAlternation := by
  intro s t _ h hstep
  rcases step_outcome hstep with rfl | ⟨u, hu, rfl⟩
  · exact h
  · exact (hu.inStep h).sieSettle

end Sys2Proof.Machine
end

section
/-! PROOF. The SIE: what it spares (O59), and how it answers every token (O60). -/

namespace Sys2Proof.Machine

/-! ### What the SIE spares -/

/-- Bytes stored from a place on change none that stands elsewhere. -/
theorem Memory.read_writeList_outside {m : Memory} (hm : m.wf = true) {x y : Nat} {vs : List Byte}
    (h : y < x ∨ x + vs.length ≤ y) : (m.writeList x vs).read y = m.read y := by
  rw [Memory.read_writeList vs x y hm]
  split
  · rw [List.getElem?_eq_none (by omega)]
    rfl
  · rfl

/-- Bytes stored in one buffer change none of another. -/
theorem Memory.read_writeList_buffer {m : Memory} (hm : m.wf = true) {b c : Buf} (hbc : b ≠ c) {vs : List Byte}
    (hlen : vs.length ≤ 64) {off : Nat} (hoff : off < 64) :
    (m.writeList c.base vs).read (b.base + off) = m.read (b.base + off) := by
  refine Memory.read_writeList_outside hm ?_
  by_contra hin
  exact Buf.disjoint hbc hoff (show b.base + off - c.base < 64 by omega) (by omega)

/-- The descriptor of a buffer, and its bytes, are as they were. -/
def Spares (s t : State) (b : Buf) : Prop := t.bd b = s.bd b ∧ ∀ off < 64, t.byteAt b off = s.byteAt b off

/-- What the SIE returns was its own, so that no buffer of the block's is among it. -/
theorem State.ne_of_own {s : State} {b c : Buf} (hb : (s.bd b).own = .sw) (hc : (s.bd c).own = .sie) : b ≠ c := by
  rintro rfl
  rw [hb] at hc
  cases hc

theorem spares_giveBack {s t : State} {b c : Buf} {x : Bd} (hbc : b ≠ c) (hbds : t.bds = s.bds.set c x)
    (hmem : t.mem = s.mem) : Spares s t b :=
  ⟨by rw [State.bd_eq, hbds]; exact Bds.get_set_other _ _ hbc, fun _ _ => by rw [State.byteAt, hmem]; rfl⟩

theorem spares_deliver {s t : State} {b c : Buf} {x : Bd} {data : List Byte} (hm : s.mem.wf = true) (hbc : b ≠ c)
    (hbds : t.bds = s.bds.set c x) (hmem : t.mem = s.mem.writeList c.base data) (hlen : data.length ≤ 64) :
    Spares s t b :=
  ⟨by rw [State.bd_eq, hbds]; exact Bds.get_set_other _ _ hbc, fun _ ho => by
    rw [State.byteAt, hmem]
    exact Memory.read_writeList_buffer hm hbc hlen ho⟩

theorem sieSetup_spares {s : State} (hm : s.mem.wf = true) (p : Vector Byte 8) {b : Buf}
    (ho : (s.bd b).own = .sw) (hb : b ≠ .ep0out) : Spares s (sieSetup p s) b := by
  constructor
  · cases b with
    | ep0out => exact absurd rfl hb
    | ep0in => rw [sieSetup_ep0in, Bd.givenUp_of_sw ho]
    | bin k => exact sieSetup_bdBin p s k
    | bout k => exact sieSetup_bdBout p s k
  · intro off hoff
    rw [State.byteAt, sieSetup_mem]
    exact Memory.read_writeList_buffer hm hb (by simp) hoff

theorem TokenOutcome.spares {s t : State} {k : Token} (h : TokenOutcome s k t) (hm : s.mem.wf = true) {b : Buf}
    (ho : (s.bd b).own = .sw) (hsetup : ∀ p, k = .setup s.dev.addr p → b ≠ .ep0out) : Spares s t b := by
  cases h with
  | answers _ a => exact ⟨rfl, fun _ _ => rfl⟩
  | resets => exact ⟨giveUpAll_bd_of_sw ho, fun _ _ => by simp [State.byteAt, sieBusReset]⟩
  | setup p => exact sieSetup_spares hm p ho (hsetup p rfl)
  | sends0 _ hc => exact spares_giveBack (State.ne_of_own ho hc) rfl rfl
  | receives0 _ data hc hl =>
    exact spares_deliver hm (State.ne_of_own ho hc) rfl rfl (hl.trans (ep0Size_bytes_le _))
  | sendsBulk _ hc => exact spares_giveBack (State.ne_of_own ho hc) rfl rfl
  | receivesBulk _ data hc hl =>
    exact spares_deliver hm (State.ne_of_own ho hc) rfl rfl (hl.trans s.cfg.bulkSize.property.2)

/-- Settles O59: the SIE returns what it owns and stores only there, but for a SETUP packet; its settling gives up what
it owns. -/
theorem sieSparesWhatTheBlockOwns : Obligations.SieSparesWhatTheBlockOwns := by
  intro s k b hinv _ ho hsetup
  obtain ⟨hbd, hbyte⟩ := (sieToken_outcome k s).spares hinv.memory ho hsetup
  refine ⟨?_, fun off hoff => ?_⟩
  · rw [sieSettle_bd_of_sw (by rw [hbd, ho]), hbd]
  · rw [State.byteAt, sieSettle_mem]
    exact hbyte off hoff

/-! ### The settling after each transaction -/

/-- A transaction after which a buffer is the block's leaves nothing to settle, if the descriptors' change and the event
fit: the event is not that of endpoint 0's OUT buffer, or that buffer is what was returned. -/
theorem State.Settled.transaction {s t : State} (h : s.Settled) {b : Buf} {x : Bd} {ev : SieEvent}
    (hbds : t.bds = s.bds.set b x) (hx : x.own = .sw) (hq : t.sie.queue = s.sie.queue ++ [ev])
    (hout : ev = .doneEp0out → b = .ep0out) (hreset : ev ≠ .busReset) : t.Settled := by
  have hown {c : Buf} (hc : (s.bd c).own = .sw) : (t.bd c).own = .sw := by
    rw [State.bd_eq, hbds, Bds.get_set]
    split
    · exact hx
    · exact hc
  constructor
  case out =>
    intro hin
    rw [hq, List.mem_append, List.mem_singleton] at hin
    rcases hin with hin | hev
    · exact hown (h.out hin)
    · rw [State.bd_eq, hbds, hout hev.symm, Bds.get_set_same]
      exact hx
  case reset =>
    intro hin c
    rw [hq, List.mem_append, List.mem_singleton] at hin
    exact hown (h.reset (hin.resolve_right (Ne.symm hreset)) c)
  case setup =>
    intro hs
    rw [hbds, Bds.set_ep0setup] at hs
    exact hown (h.setup hs)

theorem State.Settled.answered {s : State} (h : s.Settled) (a : Answer) : (s.answered a).Settled :=
  ⟨h.out, h.reset, h.setup⟩

theorem State.Settled.sieSetup {s : State} (h : s.Settled) (p : Vector Byte 8) : (sieSetup p s).Settled where
  out _ := by rw [sieSetup_ep0out]
  reset hq b := by
    rw [sieSetup_queue, List.mem_append, List.mem_singleton] at hq
    have hall := h.reset (hq.resolve_right nofun)
    cases b with
    | ep0out => rw [sieSetup_ep0out]
    | ep0in => rw [sieSetup_ep0in, Bd.givenUp_own]
    | bin k => rw [sieSetup_bdBin]; exact hall _
    | bout k => rw [sieSetup_bdBout]; exact hall _
  setup _ := by rw [sieSetup_ep0in, Bd.givenUp_own]

/-- After a bus reset every buffer is the block's. -/
theorem sieBusReset_own (s : State) (b : Buf) : ((sieBusReset s).bd b).own = .sw := by
  show ((giveUpAll s).bd b).own = .sw
  rw [giveUpAll_bd, Bd.givenUp_own]

theorem State.Settled.sieBusReset (s : State) : (sieBusReset s).Settled :=
  ⟨fun _ => sieBusReset_own s _, fun _ => sieBusReset_own s, fun _ => sieBusReset_own s _⟩

/-! ### The answers -/

/-- What the SIE has done after a token, settled. -/
def afterToken (k : Token) (s : State) : State := sieSettle (sieToken k s)

/-- The SIE answers the token and does nothing else. -/
def OnlyAnswers (k : Token) (a : Answer) (s : State) : Prop := afterToken k s = { s with answer := some a }

theorem onlyAnswers_of {s : State} (h : s.Settled) {k : Token} {a : Answer} (hk : sieToken k s = s.answered a) :
    OnlyAnswers k a s := by
  unfold OnlyAnswers afterToken
  rw [hk]
  exact sieSettle_of_settled (h.answered a)

/-- A token for this device is the endpoint's. -/
theorem sieToken_inToken (ep : BitVec 4) (s : State) : sieToken (.inToken s.dev.addr ep) s = sieInToken ep s :=
  if_pos rfl

theorem sieToken_outToken (ep : BitVec 4) (data : List Byte) (s : State) :
    sieToken (.outToken s.dev.addr ep data) s = sieOutToken ep data s :=
  if_pos rfl

theorem sieToken_setup (p : Vector Byte 8) (s : State) : sieToken (.setup s.dev.addr p) s = sieSetup p s :=
  if_pos rfl

theorem sieToken_inToken_bulk {ep : BitVec 4} {s : State} (h0 : ep ≠ 0) (hep : inAddress ep = s.cfg.epIn) :
    sieToken (.inToken s.dev.addr ep) s = sieBulkIn s := by
  rw [sieToken_inToken, sieInToken, if_neg h0, if_pos hep]

theorem sieToken_outToken_bulk {ep : BitVec 4} {s : State} (h0 : ep ≠ 0) (hep : ep.zeroExtend 8 = s.cfg.epOut)
    (data : List Byte) : sieToken (.outToken s.dev.addr ep data) s = sieBulkOut data s := by
  rw [sieToken_outToken, sieOutToken, if_neg h0, if_pos hep]

/-- Bytes stored in a canonical memory are there, and no others have changed. -/
theorem stores_of {m : Memory} (hm : m.wf = true) (base : Nat) (data : List Byte) :
    (m.writeList base data).readList base data.length = data ∧
      ∀ a, a < base ∨ base + data.length ≤ a → (m.writeList base data).read a = m.read a :=
  ⟨Memory.readList_writeList_same base data hm, fun _ ha => Memory.read_writeList_outside hm ha⟩

section
variable {s : State}

/-! ### Endpoint 0 -/

theorem afterToken_setup (h : s.Settled) (p : Vector Byte 8) :
    afterToken (.setup s.dev.addr p) s = sieSetup p s := by
  unfold afterToken
  rw [sieToken_setup, sieSettle_of_settled (h.sieSetup p)]

theorem sieSetup_eq (p : Vector Byte 8) (s : State) : sieSetup p s = { s with
    mem := (sieSetup p s).mem
    bds := { s.bds with ep0out := ⟨.sw, 8⟩, ep0setup := true, ep0in := ⟨.sw, s.bds.ep0in.count⟩ }
    sie := { s.sie with
      queue := s.sie.queue ++ [.doneEp0out], toggles := { s.sie.toggles with ep0in := true, ep0out := true } }
    answer := some .ack } := by
  rw [← sieSetup_bds p s]
  rfl

theorem sieIn0_nak (h : s.setupWaits = true ∨ (s.stallsEp0 = false ∧ (s.bd .ep0in).own = .sw)) :
    sieIn0 s = s.answered .nak := by
  unfold sieIn0
  split
  · rfl
  · next hw =>
    obtain ⟨hs, ho⟩ := h.resolve_left hw
    rw [hs, ho]
    rfl

theorem sieOut0_nak (data : List Byte) (h : s.setupWaits = true ∨ (s.stallsEp0 = false ∧ (s.bd .ep0out).own = .sw)) :
    sieOut0 data s = s.answered .nak := by
  unfold sieOut0
  split
  · rfl
  · next hw =>
    obtain ⟨hs, ho⟩ := h.resolve_left hw
    rw [hs, ho]
    rfl

theorem State.stallsEp0_of_sw (h : (s.bd .ep0out).own = .sw) : s.stallsEp0 = false := by
  rw [State.stallsEp0, h]
  exact Bool.and_false _

theorem State.stallsEp0_of_noStall (h : s.ctl.stall = false) : s.stallsEp0 = false := by
  rw [State.stallsEp0, State.stallOut0, h]
  rfl

theorem State.setupWaits_of_sie (h : (s.bd .ep0out).own = .sie) : s.setupWaits = false := by
  rw [State.setupWaits, h]
  rfl

/-- While the block has a SETUP packet or a bus reset to handle, endpoint 0 answers NAK. -/
theorem ep0_busy (hi : s.Inv) (he : s.Ep0InStep) (hb : s.bds.ep0setup = true ∨ .busReset ∈ s.sie.queue)
    (data : List Byte) : sieIn0 s = s.answered .nak ∧ sieOut0 data s = s.answered .nak := by
  rcases hb with hs | hq
  · have hw : s.setupWaits = true := State.setupWaits_eq_true.mpr ⟨by rw [hi.setup hs], hs⟩
    exact ⟨sieIn0_nak (.inl hw), sieOut0_nak data (.inl hw)⟩
  · have hall := he.settled.reset hq
    have hst := State.stallsEp0_of_sw (hall .ep0out)
    exact ⟨sieIn0_nak (.inr ⟨hst, hall _⟩), sieOut0_nak data (.inr ⟨hst, hall _⟩)⟩

/-- In protocol stall endpoint 0 answers STALL. -/
theorem ep0_stalled (hs : s.ctl.stall = true) (ho : (s.bd .ep0out).own = .sie) (data : List Byte) :
    sieIn0 s = s.answered .stall ∧ sieOut0 data s = s.answered .stall := by
  have hw : ¬ s.setupWaits = true := by rw [State.setupWaits_of_sie ho]; decide
  have hst : s.stallsEp0 = true := by rw [State.stallsEp0, State.stallOut0, hs, ho]; rfl
  exact ⟨by rw [sieIn0, if_neg hw, if_pos hst], by rw [sieOut0, if_neg hw, if_pos hst]⟩

theorem sieIn0_sends (hw : s.setupWaits = false) (hs : s.stallsEp0 = false) (ho : (s.bd .ep0in).own = .sie) :
    sieIn0 s = ep0Sent s := by
  rw [sieIn0, hw, hs, if_pos ho]
  rfl

theorem sieOut0_receives {data : List Byte} (hs : s.stallsEp0 = false) (ho : (s.bd .ep0out).own = .sie)
    (hl : data.length ≤ s.cfg.ep0Size.bytes) : sieOut0 data s = ep0Received data s := by
  rw [sieOut0, State.setupWaits_of_sie ho, hs, if_pos ho, if_pos hl]
  rfl

theorem afterToken_inToken0_armed (he : s.Ep0InStep) (hs : s.ctl.stall = false) (ho : (s.bd .ep0in).own = .sie) :
    afterToken (.inToken s.dev.addr 0) s = ep0Sent s := by
  have hw : s.setupWaits = false := by
    rw [Bool.eq_false_iff]
    intro hw
    have := (he.setup (State.setupWaits_eq_true.mp hw).2).1
    rw [this] at ho
    cases ho
  unfold afterToken
  rw [sieToken_inToken, sieInToken, if_pos rfl, sieIn0_sends hw (State.stallsEp0_of_noStall hs) ho]
  exact sieSettle_of_settled
    (he.settled.transaction (b := .ep0in) (x := ⟨.sw, s.bds.ep0in.count⟩) rfl rfl rfl nofun nofun)

theorem afterToken_outToken0_armed (he : s.Ep0InStep) (hs : s.ctl.stall = false) (ho : (s.bd .ep0out).own = .sie)
    {data : List Byte} (hl : data.length ≤ s.cfg.ep0Size.bytes) :
    afterToken (.outToken s.dev.addr 0 data) s = ep0Received data s := by
  unfold afterToken
  rw [sieToken_outToken, sieOutToken, if_pos rfl, sieOut0_receives (State.stallsEp0_of_noStall hs) ho hl]
  exact sieSettle_of_settled
    (he.settled.transaction (b := .ep0out) (x := ⟨.sw, data.length⟩) rfl rfl rfl (fun _ => rfl) nofun)

/-- What endpoint 0 answers to both tokens, where it answers only. -/
theorem ep0_onlyAnswers (hset : s.Settled) {a : Answer} {data : List Byte}
    (h : sieIn0 s = s.answered a ∧ sieOut0 data s = s.answered a) :
    OnlyAnswers (.inToken s.dev.addr 0) a s ∧ OnlyAnswers (.outToken s.dev.addr 0 data) a s :=
  ⟨onlyAnswers_of hset ((sieToken_inToken 0 s).trans h.1), onlyAnswers_of hset ((sieToken_outToken 0 data s).trans h.2)⟩

/-! ### The bulk endpoints -/

theorem sieBulkIn_stall (h : s.dev.halt.in_ = true) : sieBulkIn s = s.answered .stall := if_pos h

theorem sieBulkOut_stall (h : s.dev.halt.out = true) (data : List Byte) : sieBulkOut data s = s.answered .stall :=
  if_pos h

theorem sieBulkIn_nak (h : s.dev.halt.in_ = false) (ho : (s.bd (.bin s.sie.nextIn)).own = .sw) :
    sieBulkIn s = s.answered .nak := by
  rw [sieBulkIn, State.stallOut, Halt.get, h, ho]
  rfl

theorem sieBulkOut_nak (h : s.dev.halt.out = false) (ho : (s.bd (.bout s.sie.nextOut)).own = .sw) (data : List Byte) :
    sieBulkOut data s = s.answered .nak := by
  rw [sieBulkOut, State.stallOut, Halt.get, h, ho]
  rfl

theorem afterToken_bulkIn_armed (hset : s.Settled) {ep : BitVec 4} (h0 : ep ≠ 0) (hep : inAddress ep = s.cfg.epIn)
    (h : s.dev.halt.in_ = false) (ho : (s.bd (.bin s.sie.nextIn)).own = .sie) :
    afterToken (.inToken s.dev.addr ep) s = bulkInSent s := by
  have hs : sieBulkIn s = bulkInSent s := by
    rcases sieBulkIn_cases s with ⟨hno, -⟩ | ⟨-, -, hs⟩
    · simp [h, ho] at hno
    · exact hs
  unfold afterToken
  rw [sieToken_inToken_bulk h0 hep, hs]
  exact sieSettle_of_settled (hset.transaction (b := .bin s.sie.nextIn)
    (x := ⟨.sw, (s.bd (.bin s.sie.nextIn)).count⟩) rfl rfl rfl nofun nofun)

theorem sieBulkOut_receives {data : List Byte} (h : s.dev.halt.out = false)
    (ho : (s.bd (.bout s.sie.nextOut)).own = .sie) (hl : data.length ≤ s.cfg.bulkSize.val) :
    sieBulkOut data s = bulkOutReceived data s := by
  rw [sieBulkOut, State.stallOut, Halt.get, h]
  simp only [Bool.false_eq_true, if_false, if_pos ho, if_pos hl]
  rfl

theorem afterToken_bulkOut_armed (hset : s.Settled) {ep : BitVec 4} (h0 : ep ≠ 0)
    (hep : ep.zeroExtend 8 = s.cfg.epOut) {data : List Byte} (h : s.dev.halt.out = false)
    (ho : (s.bd (.bout s.sie.nextOut)).own = .sie) (hl : data.length ≤ s.cfg.bulkSize.val) :
    afterToken (.outToken s.dev.addr ep data) s = bulkOutReceived data s := by
  unfold afterToken
  rw [sieToken_outToken_bulk h0 hep, sieBulkOut_receives h ho hl]
  exact sieSettle_of_settled (hset.transaction (b := .bout s.sie.nextOut) (x := ⟨.sw, data.length⟩) rfl rfl rfl
    nofun nofun)

theorem sieToken_notify {ep : BitVec 4} (h0 : ep ≠ 0) (hep : inAddress ep = s.cfg.epNotify)
    (hne : s.cfg.epNotify ≠ s.cfg.epIn) : sieToken (.inToken s.dev.addr ep) s = s.answered .nak := by
  rw [sieToken_inToken, sieInToken, if_neg h0, if_neg (by rw [hep]; exact hne), if_pos hep]
  rfl

/-! ### The bus reset, and the tokens of other devices -/

theorem afterToken_busReset (s : State) : afterToken .busReset s = sieBusReset s :=
  sieSettle_of_settled (.sieBusReset s)

theorem sieBusReset_eq (s : State) : sieBusReset s = { s with
    bds := (sieBusReset s).bds
    sie := { s.sie with queue := s.sie.queue ++ [.busReset] }
    answer := some .silent } := by
  cases s
  rfl

theorem sieToken_otherDevice {a : BitVec 7} (ha : a ≠ s.dev.addr) (ep : BitVec 4) (data : List Byte)
    (p : Vector Byte 8) :
    sieToken (.inToken a ep) s = s.answered .silent ∧ sieToken (.outToken a ep data) s = s.answered .silent ∧
      sieToken (.setup a p) s = s.answered .silent :=
  ⟨if_neg ha, if_neg ha, if_neg ha⟩

end

/-- Settles O60: in a state that the SIE and the block keep in step nothing is left to settle, nor is it after any of the
SIE's transactions; so each token does what the SIE's own operation for it does. -/
theorem sieAnswersTokens : Obligations.SieAnswersTokens := by
  intro s hi he
  have hset := he.settled
  refine ⟨fun p => ?setup, fun hb data => ep0_onlyAnswers hset (ep0_busy hi he hb data),
    fun hs ho data => ep0_onlyAnswers hset (ep0_stalled hs ho data), fun hs => ⟨?in0, ?out0, ?in0nak, ?out0nak⟩,
    fun ep h0 hep => ⟨?inStall, ?inNak, ?inSends⟩, fun ep h0 hep data => ⟨?outStall, ?outNak, ?outReceives⟩,
    fun ep h0 hep hne => onlyAnswers_of hset (sieToken_notify h0 hep hne), ?reset, fun a ep data p ha => ?other⟩
  case setup =>
    intro t
    have ht : t = sieSetup p s := afterToken_setup hset p
    clear_value t
    subst ht
    refine ⟨sieSetup_eq p s, ?_⟩
    exact stores_of hi.memory _ _
  case in0 => exact fun ho => afterToken_inToken0_armed he hs ho
  case out0 =>
    intro ho data hl t
    have ht : t = ep0Received data s := afterToken_outToken0_armed he hs ho hl
    clear_value t
    subst ht
    exact ⟨rfl, stores_of hi.memory _ _⟩
  case in0nak =>
    exact fun ho => onlyAnswers_of hset
      ((sieToken_inToken 0 s).trans (sieIn0_nak (.inr ⟨State.stallsEp0_of_noStall hs, ho⟩)))
  case out0nak =>
    exact fun ho data => onlyAnswers_of hset
      ((sieToken_outToken 0 data s).trans (sieOut0_nak data (.inr ⟨State.stallsEp0_of_noStall hs, ho⟩)))
  case inStall => exact fun hh => onlyAnswers_of hset ((sieToken_inToken_bulk h0 hep).trans (sieBulkIn_stall hh))
  case inNak => exact fun hh ho => onlyAnswers_of hset ((sieToken_inToken_bulk h0 hep).trans (sieBulkIn_nak hh ho))
  case inSends => exact fun hh ho => afterToken_bulkIn_armed hset h0 hep hh ho
  case outStall =>
    exact fun hh => onlyAnswers_of hset ((sieToken_outToken_bulk h0 hep data).trans (sieBulkOut_stall hh data))
  case outNak =>
    exact fun hh ho => onlyAnswers_of hset ((sieToken_outToken_bulk h0 hep data).trans (sieBulkOut_nak hh ho data))
  case outReceives =>
    intro hh ho hl t
    have ht : t = bulkOutReceived data s := afterToken_bulkOut_armed hset h0 hep hh ho hl
    clear_value t
    subst ht
    exact ⟨rfl, stores_of hi.memory _ _⟩
  case reset =>
    intro t
    have ht : t = sieBusReset s := afterToken_busReset s
    clear_value t
    subst ht
    exact ⟨sieBusReset_eq s, giveUpAll_ep0setup s, sieBusReset_own s⟩
  case other =>
    obtain ⟨h1, h2, h3⟩ := sieToken_otherDevice ha ep data p
    exact ⟨onlyAnswers_of hset h1, onlyAnswers_of hset h2, onlyAnswers_of hset h3⟩

end Sys2Proof.Machine
end

section
/-! PROOF. Every step keeps endpoint 0 in step (the second half of O12). What the block and the SIE keep of it is cut
into what holds before the SIE settles, which every input leaves, and what the settling adds. -/

namespace Sys2Proof.Machine

/-! ### The events of endpoint 0 that wait -/

/-- An event of endpoint 0's OUT buffer waits, and nothing completes on endpoint 0 after the last of them. -/
def EndsWithOut (q : List SieEvent) : Prop :=
  ∃ before after, q = before ++ .doneEp0out :: after ∧ .doneEp0out ∉ after ∧ .doneEp0in ∉ after

/-- After a bus reset no IN packet completes, and an OUT buffer only where a SETUP packet waits. -/
def OrderedAfterReset (setup : Prop) (q : List SieEvent) : Prop :=
  q.Pairwise fun a b => a = .busReset → b ≠ .doneEp0in ∧ (b = .doneEp0out → setup)

section
variable {q : List SieEvent} {ev : SieEvent}

theorem EndsWithOut.mem (h : EndsWithOut q) : .doneEp0out ∈ q := by
  obtain ⟨before, after, rfl, -, -⟩ := h
  simp

theorem EndsWithOut.posted (q : List SieEvent) : EndsWithOut (q ++ [.doneEp0out]) :=
  ⟨q, [], rfl, nofun, nofun⟩

theorem EndsWithOut.append (h : EndsWithOut q) (hout : ev ≠ .doneEp0out) (hin : ev ≠ .doneEp0in) :
    EndsWithOut (q ++ [ev]) := by
  obtain ⟨before, after, rfl, ho, hi⟩ := h
  exact ⟨before, after ++ [ev], by simp, by simp [ho, hout.symm], by simp [hi, hin.symm]⟩

/-- The oldest event is taken: the last of the OUT buffer's still waits, or it was that one and no IN packet's is
left. -/
theorem EndsWithOut.tail (h : EndsWithOut (ev :: q)) :
    EndsWithOut q ∨ (ev = .doneEp0out ∧ .doneEp0out ∉ q ∧ .doneEp0in ∉ q) := by
  obtain ⟨before, after, heq, ho, hi⟩ := h
  cases before with
  | nil =>
    obtain ⟨rfl, rfl⟩ := List.cons.inj heq
    exact .inr ⟨rfl, ho, hi⟩
  | cons e before =>
    obtain ⟨rfl, rfl⟩ := List.cons.inj heq
    exact .inl ⟨before, after, rfl, ho, hi⟩

theorem OrderedAfterReset.tail {setup : Prop} (h : OrderedAfterReset setup (ev :: q)) : OrderedAfterReset setup q :=
  List.Pairwise.of_cons h

/-- A premise that every waiting event of the OUT buffer gives may take the place of another. -/
theorem OrderedAfterReset.imp {setup setup' : Prop} (h : OrderedAfterReset setup q)
    (hs : .doneEp0out ∈ q → setup → setup') : OrderedAfterReset setup' q :=
  List.Pairwise.imp_of_mem (fun _ hb hab hr => ⟨(hab hr).1, fun e => hs (e ▸ hb) ((hab hr).2 e)⟩) h

theorem OrderedAfterReset.append {setup : Prop} (h : OrderedAfterReset setup q)
    (hev : .busReset ∈ q → ev ≠ .doneEp0in ∧ (ev = .doneEp0out → setup)) :
    OrderedAfterReset setup (q ++ [ev]) := by
  refine List.pairwise_append.mpr ⟨h, List.pairwise_singleton _ _, fun a ha b hb hr => ?_⟩
  obtain rfl := List.mem_singleton.mp hb
  exact hev (hr ▸ ha)

end

/-! ### What holds before the SIE settles -/

/-- A SETUP packet waits in the endpoint-0 OUT buffer once the SIE has settled: it does already, or the SIE returns the
buffer with it (assumption 8). -/
def State.SetupLeft (s : State) : Prop :=
  s.bds.ep0setup = true ∨ (.doneEp0out ∈ s.sie.queue ∧ (s.bd .ep0out).own = .sie)

/-- What the block and the SIE keep of endpoint 0, but for what the settling restores. -/
structure State.Ep0Settles (s : State) : Prop where
  armed : (s.bd .ep0out).own = .sw → .doneEp0out ∈ s.sie.queue ∨ .busReset ∈ s.sie.queue
  out : .doneEp0out ∈ s.sie.queue → s.SetupLeft ∨ s.sie.queue.count .doneEp0out = 1
  in_ : .doneEp0in ∈ s.sie.queue → (s.SetupLeft ∨ (s.bd .ep0in).own = .sw) ∧ s.sie.queue.count .doneEp0in = 1
  order : OrderedAfterReset s.SetupLeft s.sie.queue
  setup : s.SetupLeft → EndsWithOut s.sie.queue
  lineCoding : s.ctl.lcPending = true → s.SetupLeft ∨ ((s.bd .ep0in).own = .sw ∧ .doneEp0in ∉ s.sie.queue)

section
variable {s t : State}

theorem State.Ep0InStep.setup_of_left (h : s.Ep0InStep) (hl : s.SetupLeft) : s.bds.ep0setup = true := by
  rcases hl with hs | ⟨hq, ho⟩
  · exact hs
  · rw [(h.out hq).1] at ho
    cases ho

theorem State.Ep0InStep.settles (h : s.Ep0InStep) : s.Ep0Settles where
  armed := h.armed
  out hq := (h.out hq).2.imp_left .inl
  in_ hq := (h.in_ hq).imp_left .inr
  order := OrderedAfterReset.imp h.order fun _ => .inl
  setup hl := (h.setup (h.setup_of_left hl)).2
  lineCoding hc := (h.lineCoding hc).imp_left .inl

/-- What leaves the control state and the events alone keeps it. -/
theorem SameControl.ep0Settles (h : SameControl s t) (hs : s.Ep0Settles) : t.Ep0Settles := by
  have hl : t.SetupLeft = s.SetupLeft := by
    rw [State.SetupLeft, State.SetupLeft, h.ep0setup, h.queue, h.ep0out]
  constructor
  · rw [h.ep0out, h.queue]; exact hs.armed
  · rw [hl, h.queue]; exact hs.out
  · rw [hl, h.queue, h.ep0in]; exact hs.in_
  · rw [hl, h.queue]; exact hs.order
  · rw [hl, h.queue]; exact hs.setup
  · rw [hl, h.queue, h.ep0in, h.ctl]; exact hs.lineCoding

/-! ### The settling -/

theorem sieTakeBack_ep0setup (s : State) : (sieTakeBack s).bds.ep0setup = s.bds.ep0setup := by
  simp only [sieTakeBack]
  split <;> split <;> simp

/-- After the settling a SETUP packet waits exactly where `SetupLeft` says so. -/
theorem sieSettle_ep0setup : (sieSettle s).bds.ep0setup = true ↔ s.SetupLeft := by
  rw [sieSettle, sieTakeBack_ep0setup, State.SetupLeft]
  rcases redeliver_cases s with ⟨hn, hr⟩ | ⟨hq, ho, hr⟩
  · rw [hr]
    exact ⟨.inl, fun h => h.resolve_right hn⟩
  · rw [hr]
    exact ⟨fun _ => .inr ⟨hq, ho⟩, fun _ => rfl⟩

/-- The settling returns the OUT buffer of an event that waits. -/
theorem redeliver_ep0out_own (hq : .doneEp0out ∈ s.sie.queue) : ((redeliver s).bd .ep0out).own = .sw := by
  rcases redeliver_cases s with ⟨hn, hr⟩ | ⟨-, -, hr⟩
  · rw [hr]
    exact Owner.ne_sie.mp fun ho => hn ⟨hq, ho⟩
  · rw [hr]
    rfl

theorem sieSettle_ep0out_own (hq : .doneEp0out ∈ s.sie.queue) : ((sieSettle s).bd .ep0out).own = .sw := by
  have ho := redeliver_ep0out_own hq
  rw [sieSettle, sieTakeBack_bd_of_sw ho, ho]

/-- While a bus reset waits the settling returns every buffer. -/
theorem sieSettle_own_of_reset (hq : .busReset ∈ s.sie.queue) (b : Buf) : ((sieSettle s).bd b).own = .sw := by
  have hr : (redeliver s).resetWaits = true := by
    rw [State.resetWaits_eq_true, redeliver_sie]
    exact hq
  have hall (c : Buf) : ((giveUpAll (redeliver s)).bd c).own = .sw := by rw [giveUpAll_bd, Bd.givenUp_own]
  simp only [sieSettle, sieTakeBack, hr, if_true]
  split
  · rw [giveUp_of_sw (hall _)]; exact hall b
  · exact hall b

/-- While a SETUP packet waits the settling takes the IN buffer back. -/
theorem sieSettle_ep0in_own (hl : s.SetupLeft) (hq : .doneEp0out ∈ s.sie.queue) :
    ((sieSettle s).bd .ep0in).own = .sw := by
  have ho := sieSettle_ep0out_own hq
  have hs := sieSettle_ep0setup.mpr hl
  simp only [sieSettle, sieTakeBack] at ho hs ⊢
  generalize (if (redeliver s).resetWaits then giveUpAll (redeliver s) else redeliver s) = u at ho hs ⊢
  split
  · rw [giveUp_bd, if_pos rfl, Bd.givenUp_own]
  · next hw =>
    rw [if_neg hw] at ho hs
    exact absurd (State.setupWaits_eq_true.mpr ⟨ho, hs⟩) hw

/-- With none of its events and no bus reset waiting, the settling leaves the OUT buffer alone. -/
theorem sieSettle_ep0out (hq : .doneEp0out ∉ s.sie.queue) (hr : .busReset ∉ s.sie.queue) :
    (sieSettle s).bd .ep0out = s.bd .ep0out := by
  have hre : redeliver s = s := by
    rcases redeliver_cases s with ⟨-, h⟩ | ⟨h, -, -⟩
    · exact h
    · exact absurd h hq
  have hrw : ¬ s.resetWaits = true := by rw [State.resetWaits_eq_true]; exact hr
  simp only [sieSettle, sieTakeBack, hre, if_neg hrw]
  split
  · rw [giveUp_bd, if_neg nofun]
  · rfl

/-- What every step keeps, settled, is what the block and the SIE keep. -/
theorem State.Ep0Settles.sieSettle (h : s.Ep0Settles) : (sieSettle s).Ep0InStep where
  armed ho := by
    rw [sieSettle_sie]
    by_contra hn
    obtain ⟨hq, hr⟩ := not_or.mp hn
    rw [sieSettle_ep0out hq hr] at ho
    exact hn (h.armed ho)
  out hq := by
    rw [sieSettle_sie] at hq ⊢
    exact ⟨sieSettle_ep0out_own hq, (h.out hq).imp_left sieSettle_ep0setup.mpr⟩
  in_ hq := by
    rw [sieSettle_sie] at hq ⊢
    obtain ⟨hl | ho, hc⟩ := h.in_ hq
    · exact ⟨sieSettle_ep0in_own hl (h.setup hl).mem, hc⟩
    · exact ⟨by rw [sieSettle_bd_of_sw ho, ho], hc⟩
  order := by
    rw [sieSettle_sie]
    exact h.order.imp fun _ => sieSettle_ep0setup.mpr
  reset hr := by
    rw [State.resetWaits_eq_true, sieSettle_sie] at hr
    exact sieSettle_own_of_reset hr
  setup hs := by
    rw [sieSettle_sie]
    have hend := h.setup (sieSettle_ep0setup.mp hs)
    exact ⟨sieSettle_ep0in_own (sieSettle_ep0setup.mp hs) hend.mem, hend⟩
  lineCoding hc := by
    rw [sieSettle_ctl] at hc
    rw [sieSettle_sie]
    rcases h.lineCoding hc with hl | ⟨ho, hq⟩
    · exact .inl (sieSettle_ep0setup.mpr hl)
    · exact .inr ⟨by rw [sieSettle_bd_of_sw ho, ho], hq⟩

/-! ### Tokens -/

/-- A transaction of another endpoint, or a bus reset, appends its event and returns buffers only. -/
theorem State.Ep0InStep.posted (h : s.Ep0InStep) {ev : SieEvent} (hq : t.sie.queue = s.sie.queue ++ [ev])
    (hout : ev ≠ .doneEp0out) (hin : ev ≠ .doneEp0in) (hctl : t.ctl = s.ctl)
    (hsetup : t.bds.ep0setup = s.bds.ep0setup) (hkeep : ∀ b, (s.bd b).own = .sw → (t.bd b).own = .sw)
    (harmed : (t.bd .ep0out).own = .sw → (s.bd .ep0out).own = .sw ∨ ev = .busReset) : t.Ep0Settles := by
  have hmem {e : SieEvent} (he : ev ≠ e) : e ∈ t.sie.queue ↔ e ∈ s.sie.queue := by
    simp [hq, he.symm]
  have hcount {e : SieEvent} (he : ev ≠ e) : t.sie.queue.count e = s.sie.queue.count e := by
    simp [hq, he]
  have hleft : t.SetupLeft ↔ s.bds.ep0setup = true := by
    rw [State.SetupLeft, hsetup, hmem hout]
    refine ⟨fun hl => hl.elim id fun ⟨hd, ho⟩ => ?_, .inl⟩
    rw [hkeep _ (h.out hd).1] at ho
    cases ho
  constructor
  case armed =>
    intro ho
    rw [hmem hout]
    rcases harmed ho with ho | rfl
    · exact (h.armed ho).imp_right fun hr => by rw [hq]; exact List.mem_append_left _ hr
    · exact .inr (by simp [hq])
  case out =>
    rw [hmem hout, hcount hout, hleft]
    exact fun hd => (h.out hd).2
  case in_ =>
    rw [hmem hin, hcount hin]
    exact fun hd => ⟨.inr (hkeep _ (h.in_ hd).1), (h.in_ hd).2⟩
  case order =>
    rw [hq]
    refine OrderedAfterReset.append (OrderedAfterReset.imp h.order fun _ => hleft.mpr) fun _ => ⟨hin, fun e => ?_⟩
    exact absurd e hout
  case setup =>
    intro hl
    rw [hq]
    exact EndsWithOut.append (h.setup (hleft.mp hl)).2 hout hin
  case lineCoding =>
    rw [hctl, hmem hin, hleft]
    exact fun hc => (h.lineCoding hc).imp_right fun ⟨ho, hd⟩ => ⟨hkeep _ ho, hd⟩

/-- The SIE sends the endpoint-0 IN packet. While it owns that buffer neither a SETUP packet nor a bus reset waits. -/
theorem State.Ep0InStep.ep0Sent (h : s.Ep0InStep) (ho : (s.bd .ep0in).own = .sie) : (ep0Sent s).Ep0Settles := by
  have hsw : (s.bd .ep0in).own ≠ .sw := by rw [ho]; nofun
  have hsetup : ¬ s.bds.ep0setup = true := fun hs => hsw (h.setup hs).1
  have hreset : .busReset ∉ s.sie.queue := fun hr => hsw (h.reset (State.resetWaits_eq_true.mpr hr) _)
  have hin : .doneEp0in ∉ s.sie.queue := fun hd => hsw (h.in_ hd).1
  have hqueue : (Machine.ep0Sent s).sie.queue = s.sie.queue ++ [.doneEp0in] := rfl
  have hmem : .doneEp0out ∈ (Machine.ep0Sent s).sie.queue ↔ .doneEp0out ∈ s.sie.queue := by simp [hqueue]
  have hleft : ¬ (Machine.ep0Sent s).SetupLeft := fun hl =>
    hsetup (h.setup_of_left (hl.imp_right fun ⟨hd, hout⟩ => ⟨hmem.mp hd, hout⟩))
  constructor
  case armed =>
    exact fun hout => (h.armed hout).imp (List.mem_append_left _) (List.mem_append_left _)
  case out =>
    rw [hmem, hqueue, List.count_append]
    exact fun hd => .inr ((h.out hd).2.resolve_left hsetup)
  case in_ =>
    rw [hqueue, List.count_append, List.count_eq_zero_of_not_mem hin]
    exact fun _ => ⟨.inr rfl, rfl⟩
  case order =>
    exact OrderedAfterReset.append (OrderedAfterReset.imp h.order fun _ hs => absurd hs hsetup) fun hr =>
      absurd hr hreset
  case setup => exact fun hl => absurd hl hleft
  case lineCoding =>
    intro hc
    rcases h.lineCoding hc with hs | ⟨hown, -⟩
    · exact absurd hs hsetup
    · exact absurd hown hsw

/-- The SIE stores an OUT packet on endpoint 0. While it owns that buffer no event of the buffer waits, and neither does
a SETUP packet or a bus reset. -/
theorem State.Ep0InStep.ep0Received (h : s.Ep0InStep) (ho : (s.bd .ep0out).own = .sie) (data : List Byte) :
    (ep0Received data s).Ep0Settles := by
  have hsw : (s.bd .ep0out).own ≠ .sw := by rw [ho]; nofun
  have hout : .doneEp0out ∉ s.sie.queue := fun hd => hsw (h.out hd).1
  have hsetup : ¬ s.bds.ep0setup = true := fun hs => hout (EndsWithOut.mem (h.setup hs).2)
  have hreset : .busReset ∉ s.sie.queue := fun hr => hsw (h.reset (State.resetWaits_eq_true.mpr hr) _)
  have hqueue : (Machine.ep0Received data s).sie.queue = s.sie.queue ++ [.doneEp0out] := rfl
  have hmem : .doneEp0in ∈ (Machine.ep0Received data s).sie.queue ↔ .doneEp0in ∈ s.sie.queue := by simp [hqueue]
  have hleft : ¬ (Machine.ep0Received data s).SetupLeft := by
    rintro (hs | ⟨-, hown⟩)
    · exact hsetup hs
    · cases hown
  constructor
  case armed => exact fun _ => .inl (List.mem_append_right _ (List.mem_singleton.mpr rfl))
  case out =>
    rw [hqueue, List.count_append, List.count_eq_zero_of_not_mem hout]
    exact fun _ => .inr rfl
  case in_ =>
    rw [hmem, hqueue, List.count_append]
    exact fun hd => (h.in_ hd).imp_left .inr
  case order =>
    exact OrderedAfterReset.append (OrderedAfterReset.imp h.order fun _ hs => absurd hs hsetup) fun hr =>
      absurd hr hreset
  case setup => exact fun hl => absurd hl hleft
  case lineCoding =>
    rw [hmem]
    exact fun hc => .inr ((h.lineCoding hc).resolve_left hsetup)

/-- A SETUP packet is stored whatever waits; it waits last. -/
theorem State.Ep0InStep.sieSetup (h : s.Ep0InStep) (p : Vector Byte 8) : (sieSetup p s).Ep0Settles where
  armed _ := .inl (EndsWithOut.posted _).mem
  out _ := .inl (.inl rfl)
  in_ hd := by
    rw [sieSetup_queue, List.mem_append] at hd
    rw [sieSetup_queue, List.count_append]
    exact ⟨.inl (.inl rfl), (h.in_ (hd.resolve_right nofun)).2⟩
  order := OrderedAfterReset.append (OrderedAfterReset.imp h.order fun _ _ => .inl rfl) fun _ =>
    ⟨nofun, fun _ => .inl rfl⟩
  setup _ := EndsWithOut.posted _
  lineCoding _ := .inl (.inl rfl)

/-- A transaction of a bulk endpoint returns one of its buffers. -/
theorem State.Ep0InStep.bulkReturned (h : s.Ep0InStep) {ev : SieEvent} {c : Buf} {x : Bd}
    (hq : t.sie.queue = s.sie.queue ++ [ev]) (hout : ev ≠ .doneEp0out) (hin : ev ≠ .doneEp0in) (hctl : t.ctl = s.ctl)
    (hbds : t.bds = s.bds.set c x) (hx : x.own = .sw) (hc : .ep0out ≠ c) : t.Ep0Settles := by
  have hbd (b : Buf) : t.bd b = if b = c then x else s.bd b := by rw [State.bd_eq, hbds, Bds.get_set, ← State.bd_eq]
  refine h.posted hq hout hin hctl (by rw [hbds, Bds.set_ep0setup]) (fun b ho => ?_) fun ho => .inl ?_
  · rw [hbd]
    split
    · exact hx
    · exact ho
  · rwa [hbd, if_neg hc] at ho

theorem TokenOutcome.ep0Settles {k : Token} (ho : TokenOutcome s k t) (h : s.Ep0InStep) : t.Ep0Settles := by
  cases ho with
  | answers _ a => exact SameControl.ep0Settles (s := s) ⟨rfl, rfl, rfl, rfl, rfl, rfl, rfl⟩ h.settles
  | resets =>
    refine h.posted (ev := .busReset) rfl nofun nofun (sieToken_ctl .busReset s) ?_ (fun b _ => sieBusReset_own s b)
      fun _ => .inr rfl
    rw [sieBusReset_eq]
    exact giveUpAll_ep0setup s
  | setup p => exact h.sieSetup p
  | sends0 _ ho => exact h.ep0Sent ho
  | receives0 _ data ho hl => exact h.ep0Received ho data
  | sendsBulk _ ho => exact h.bulkReturned (c := .bin s.sie.nextIn) rfl nofun nofun rfl rfl rfl nofun
  | receivesBulk _ data ho hl => exact h.bulkReturned (c := .bout s.sie.nextOut) rfl nofun nofun rfl rfl rfl nofun

/-! ### Events -/

/-- What a USB control request leaves alone of endpoint 0: the events that wait, the OUT buffer, and where it awaits the
line coding, the IN buffer. -/
theorem SetupOutcome.ep0 (h : SetupOutcome s t) :
    t.sie.queue = s.sie.queue ∧ t.bd .ep0out = s.bd .ep0out ∧
      (t.ctl.lcPending = true → s.ctl.lcPending = true ∨ t.bd .ep0in = s.bd .ep0in) := by
  cases h with
  | configures c hc u hu ho =>
    rw [bulkReset_eq, Host.Outcome.next.injEq] at hu
    subst hu
    split
    · exact ⟨rfl, rfl, .inl⟩
    · exact ⟨rfl, rfl, .inl⟩
  | stalls => exact ⟨rfl, rfl, nofun⟩
  | awaitsLineCoding => exact ⟨rfl, rfl, fun _ => .inr rfl⟩
  | _ => exact ⟨rfl, rfl, .inl⟩

/-- Where endpoint 0's OUT buffer has been armed again, a SETUP packet is left exactly where an event of the buffer
waits; what has to hold then speaks of the events that wait. -/
theorem State.Ep0Settles.of_armed (ho : (t.bd .ep0out).own = .sie) (hs : t.bds.ep0setup = false)
    (hin : .doneEp0in ∈ t.sie.queue →
      (.doneEp0out ∈ t.sie.queue ∨ (t.bd .ep0in).own = .sw) ∧ t.sie.queue.count .doneEp0in = 1)
    (horder : OrderedAfterReset True t.sie.queue) (hend : .doneEp0out ∈ t.sie.queue → EndsWithOut t.sie.queue)
    (hlc : t.ctl.lcPending = true →
      .doneEp0out ∈ t.sie.queue ∨ ((t.bd .ep0in).own = .sw ∧ .doneEp0in ∉ t.sie.queue)) : t.Ep0Settles := by
  have hleft (hq : .doneEp0out ∈ t.sie.queue) : t.SetupLeft := .inr ⟨hq, ho⟩
  constructor
  case armed => rw [ho]; exact nofun
  case out => exact fun hq => .inl (hleft hq)
  case in_ => exact fun hq => (hin hq).imp_left (Or.imp_left hleft)
  case order => exact horder.imp fun hq _ => hleft hq
  case setup =>
    rintro (h | ⟨hq, -⟩)
    · rw [hs] at h
      cases h
    · exact hend hq
  case lineCoding => exact fun hc => (hlc hc).imp_left hleft

section
variable {q : List SieEvent} {ev : SieEvent}

/-- An IN packet's event behind the oldest is the only one, and the oldest is another. -/
theorem State.Ep0InStep.in_tail (h : s.Ep0InStep) (hs : s.sie.queue = ev :: q) (hd : .doneEp0in ∈ q) :
    ev ≠ .doneEp0in ∧ (s.bd .ep0in).own = .sw ∧ q.count .doneEp0in = 1 := by
  obtain ⟨ho, hc⟩ := h.in_ (by rw [hs]; exact List.mem_cons_of_mem _ hd)
  have hpos := List.count_pos_iff.mpr hd
  rw [hs] at hc
  have hne : ev ≠ .doneEp0in := by
    rintro rfl
    rw [List.count_cons_self] at hc
    omega
  exact ⟨hne, ho, by rwa [List.count_cons_of_ne hne] at hc⟩

theorem State.Ep0InStep.order_tail (h : s.Ep0InStep) (hs : s.sie.queue = ev :: q) :
    OrderedAfterReset (s.bds.ep0setup = true) q :=
  OrderedAfterReset.tail (hs ▸ h.order)

/-- While a SETUP packet waits the oldest event is taken: the last of the OUT buffer's still waits, or it was that. -/
theorem State.Ep0InStep.end_tail (h : s.Ep0InStep) (hs : s.sie.queue = ev :: q) (hst : s.bds.ep0setup = true) :
    EndsWithOut q ∨ (ev = .doneEp0out ∧ .doneEp0out ∉ q ∧ .doneEp0in ∉ q) := by
  have hend : EndsWithOut s.sie.queue := (h.setup hst).2
  rw [hs] at hend
  exact hend.tail

/-- An event whose handling leaves the OUT buffer alone is taken; the IN buffer may be armed where the event is that of
the IN buffer, and else is left alone too. -/
theorem State.Ep0InStep.taken (h : s.Ep0InStep) (hs : s.sie.queue = ev :: q) (hout : ev ≠ .doneEp0out)
    (hreset : ev ≠ .busReset) (hq : t.sie.queue = q) (hbd : t.bd .ep0out = s.bd .ep0out)
    (hsetup : t.bds.ep0setup = s.bds.ep0setup) (hlc : t.ctl.lcPending = s.ctl.lcPending)
    (hin : ev = .doneEp0in ∨ t.bd .ep0in = s.bd .ep0in) : t.Ep0Settles := by
  have hmem {e : SieEvent} (he : ev ≠ e) : e ∈ s.sie.queue ↔ e ∈ q := by simp [hs, he.symm]
  have hcount {e : SieEvent} (he : ev ≠ e) : s.sie.queue.count e = q.count e := by simp [hs, he]
  have hleft : t.SetupLeft ↔ s.bds.ep0setup = true := by
    rw [State.SetupLeft, hq, hsetup, hbd, ← hmem hout]
    exact ⟨h.setup_of_left, .inl⟩
  have harmed := h.armed
  have hdone := h.out
  rw [hmem hout, hcount hout] at hdone
  rw [hmem hout, hmem hreset] at harmed
  constructor
  case armed => rw [hbd, hq]; exact harmed
  case out => rw [hq, hleft]; exact fun hd => (hdone hd).2
  case in_ =>
    rw [hq]
    intro hd
    obtain ⟨hne, ho, hc⟩ := h.in_tail hs hd
    exact ⟨.inr (by rw [hin.resolve_left hne, ho]), hc⟩
  case order => rw [hq, hleft]; exact h.order_tail hs
  case setup => rw [hq, hleft]; exact fun hst => (h.end_tail hs hst).resolve_right fun hn => hout hn.1
  case lineCoding =>
    rw [hlc, hq, hleft]
    intro hc
    refine (h.lineCoding hc).imp_right fun ⟨ho, hd⟩ => ?_
    rw [hs, List.mem_cons, not_or] at hd
    exact ⟨by rw [hin.resolve_left (Ne.symm hd.1), ho], hd.2⟩

/-- A SETUP packet is handled. Where its event was the last of the OUT buffer's, none of the IN buffer's is left. -/
theorem State.Ep0InStep.setupHandled {u : State} (h : s.Ep0InStep) (hs : s.sie.queue = .doneEp0out :: q)
    (hst : s.bds.ep0setup = true) (hu : SetupOutcome (leaveStall (s.withQueue q)) u) : (rearmed u).Ep0Settles := by
  obtain ⟨hkeeps, -, hlc⟩ := hu.ep0
  have hqueue : (rearmed u).sie.queue = q := hkeeps
  have htail := (h.end_tail hs hst).imp_right And.right
  refine .of_armed rfl rfl ?in_ ?order ?end_ ?lineCoding
  case in_ =>
    rw [hqueue]
    exact fun hd => ⟨.inl (htail.resolve_right fun hn => hn.2 hd).mem, (h.in_tail hs hd).2.2⟩
  case order => rw [hqueue]; exact (h.order_tail hs).imp fun _ _ => trivial
  case end_ => rw [hqueue]; exact fun hd => htail.resolve_right fun hn => hn.1 hd
  case lineCoding =>
    intro hc
    rw [hqueue]
    rcases htail with he | ⟨-, hn⟩
    · exact .inl he.mem
    · have hkept : (rearmed u).bd .ep0in = s.bd .ep0in := (hlc hc).resolve_left nofun
      exact .inr ⟨by rw [hkept, (h.setup hst).1], hn⟩

/-- A data or status stage is handled. No other event of the OUT buffer waits, and where the stage arms the IN buffer,
no event of that. -/
theorem State.Ep0InStep.dataHandled {u : State} (h : s.Ep0InStep) (hs : s.sie.queue = .doneEp0out :: q)
    (hst : s.bds.ep0setup = false) (hu : handleEp0Data (s.withQueue q) = .next u) : (rearmed u).Ep0Settles := by
  have hnotSetup : ¬ s.bds.ep0setup = true := by rw [hst]; nofun
  have hlast : .doneEp0out ∉ q := by
    have hcount := (h.out (by rw [hs]; exact List.mem_cons_self)).2.resolve_left hnotSetup
    rw [hs, List.count_cons_self] at hcount
    exact List.count_eq_zero.mp (by omega)
  have horder : OrderedAfterReset True q := (h.order_tail hs).imp fun _ _ => trivial
  rcases handleEp0Data_next hu with ⟨hlc, -, lc, rfl⟩ | ⟨hlc, rfl⟩
  · have hnone : .doneEp0in ∉ q := by
      have hn := ((h.lineCoding hlc).resolve_left hnotSetup).2
      rw [hs] at hn
      exact fun hd => hn (List.mem_cons_of_mem _ hd)
    exact .of_armed rfl rfl (fun hd => absurd hd hnone) horder (fun hd => absurd hd hlast) nofun
  · refine .of_armed rfl rfl (fun hd => (h.in_tail hs hd).2.imp_left .inr) horder (fun hd => absurd hd hlast)
      fun hc => ?_
    rw [show (s.withQueue q).ctl.lcPending = true from hc] at hlc
    cases hlc

/-- A USB bus reset is handled: endpoint 0 begins again, and nothing of it but SETUP packets waits behind the reset. -/
theorem State.Ep0InStep.resetHandled (h : s.Ep0InStep) (hs : s.sie.queue = .busReset :: q) :
    (bulkTakeBack (busResetTaken (s.withQueue q))).Ep0Settles := by
  have horder : OrderedAfterReset (s.bds.ep0setup = true) (.busReset :: q) := hs ▸ h.order
  have hafter := (List.pairwise_cons.mp horder).1
  have hnone : .doneEp0in ∉ q := fun hd => (hafter _ hd rfl).1 rfl
  exact .of_armed rfl rfl (fun hd => absurd hd hnone) (horder.tail.imp fun _ _ => trivial)
    (fun hd => (h.end_tail hs ((hafter _ hd rfl).2 rfl)).resolve_right nofun) nofun

theorem EventOutcome.doneEp0in_keeps (h : EventOutcome s .doneEp0in t) :
    t.sie.queue = s.sie.queue ∧ t.bd .ep0out = s.bd .ep0out ∧ t.bds.ep0setup = s.bds.ep0setup ∧
      t.ctl.lcPending = s.ctl.lcPending := by
  cases h <;> exact ⟨rfl, rfl, rfl, rfl⟩

theorem State.Ep0InStep.handled (h : s.Ep0InStep) (hs : s.sie.queue = ev :: q)
    (ht : handleEvent ev (s.withQueue q) = .next t) : t.Ep0Settles := by
  cases ev with
  | busReset =>
    obtain ⟨-, -, rfl⟩ := handleBusReset_eq_next.mp ht
    exact h.resetHandled hs
  | doneEp0out =>
    obtain ⟨-, u, -, rfl, ⟨hst, hu⟩ | ⟨hst, hu⟩⟩ := handleEp0Out_next ht
    · exact h.setupHandled hs hst (handleSetup_next hu)
    · exact h.dataHandled hs hst hu
  | doneEp0in =>
    obtain ⟨hq, hout, hsetup, hlc⟩ := (handleEp0In_outcome ht).doneEp0in_keeps
    exact h.taken hs nofun nofun hq hout hsetup hlc (.inl rfl)
  | doneBin k => cases ht; exact h.taken hs nofun nofun rfl rfl rfl rfl (.inr rfl)
  | doneBout k => cases ht; exact h.taken hs nofun nofun rfl rfl rfl rfl (.inr rfl)

theorem State.Ep0InStep.serviced (h : s.Ep0InStep) (ht : serviceSie s = .next t) : t.Ep0Settles := by
  unfold serviceSie at ht
  split at ht
  · cases ht; exact h.settles
  · next ev q hs => exact h.handled hs ht

end

/-- A poll handles the oldest event; the bulk manager's acts after it leave endpoint 0 alone. -/
theorem State.Ep0InStep.polled (h : s.Ep0InStep) (ht : exec .usbPoll s = .next t) : t.Ep0Settles := by
  obtain ⟨u, v, w, hu, hv, hw, rfl⟩ := execUsbPoll_eq_next.mp ht
  have hbulk : SameControl u w :=
    (bulkOutZeroLength_act hv).sameControl.trans (idleStep_act hw).sameControl
  exact SameControl.ep0Settles (hbulk.trans ⟨rfl, rfl, rfl, rfl, rfl, rfl, rfl⟩) (h.serviced hu)

/-! ### The step -/

theorem State.Ep0InStep.accept (h : s.Ep0InStep) (rest : List Input) (b : Option (List Byte)) :
    ({ s.accept rest with bench := b } : State).Ep0InStep :=
  ⟨h.armed, h.out, h.in_, h.order, h.reset, h.setup, h.lineCoding⟩

/-- An operation that a step runs, which is no control request: a poll, or one that leaves the control state alone. -/
theorem State.Ep0InStep.exec {i : Instr} (h : s.Ep0InStep) (hi : i.opClass ≠ .setup) (ht : exec i s = .next t) :
    t.Ep0Settles := by
  by_cases hp : i = .usbPoll
  · subst hp
    exact h.polled ht
  · exact (onlyControlWritesControlState i s t hi hp ht).ep0Settles h.settles

theorem State.Ep0InStep.stepInput {i : Input} (h : s.Ep0InStep) (ht : stepInput i s = .next t) : t.Ep0Settles := by
  rcases stepInput_eq_next ht with ⟨bytes, j, rfl, hd, he⟩ | ⟨bytes, op, rfl, -, rfl⟩ | ⟨k, rfl, rfl⟩ |
    ⟨o, rfl, rfl⟩ | ⟨rfl, rfl⟩
  · exact h.exec (by rw [(decodeClient_ok hd).1]; nofun) he
  · exact (BusOnly.respond _ _ s).sameControl.ep0Settles h.settles
  · exact (sieToken_outcome k s).ep0Settles h
  · exact (BusOnly.outsideAct o s).sameControl.ep0Settles h.settles
  · exact SameControl.ep0Settles (s := s) ⟨rfl, rfl, rfl, rfl, rfl, rfl, rfl⟩ h.settles

/-- Every step keeps endpoint 0 in step: what it does leaves what the settling needs. -/
theorem State.Ep0InStep.step (h : s.Ep0InStep) (ht : step s = .next t) : t.Ep0InStep := by
  rcases step_eq_next ht with ⟨-, -, rfl⟩ | ⟨bytes, u, -, hu, rfl⟩ | ⟨i, rest, u, -, -, hu, rfl⟩
  · exact h
  · obtain ⟨j, hd, he⟩ := stepBench_eq_next hu
    exact ((h.accept s.inputs none).exec (by rw [decodeSerial_opClass hd]; nofun) he).sieSettle
  · exact ((h.accept rest s.bench).stepInput hu).sieSettle

end

end Sys2Proof.Machine
end

section
/-! PROOF. No step meets a buffer that the SIE owns (O12): every operation that a step runs completes. -/

namespace Sys2Proof.Machine

/-! ### The forms of a control request -/

/-- What a USB control request runs: the stall, a reply or a status packet, with the buffers as they were.
SET_CONFIGURATION sends its status packet after `BulkReset`, which leaves the IN buffer of endpoint 0 alone. -/
inductive RequestForm (s : State) : Instr → Res → Prop where
  | stalls (i : Instr) : RequestForm s i (.next (raiseStall s))
  | replies (i : Instr) (data : List Byte) (wLength : Half) (subst : Bool) :
    RequestForm s i (startIn data wLength subst s)
  | acknowledges (i : Instr) (u : State) (hbds : u.bds = s.bds) (hmem : u.mem = s.mem) : RequestForm s i (statusIn u)
  | configures (d : BitVec 1) (r : BitVec 5) (v x l : Half) (u : State) (hin : u.bd .ep0in = s.bd .ep0in) :
    RequestForm s (.setConfiguration d r v x l) (statusIn u)
  | awaits (i : Instr) : RequestForm s i (.next { s with ctl := { s.ctl with lcPending := true } })

theorem execSetConfiguration_form (d : BitVec 1) (r : BitVec 5) (v x l : Half) (s : State) :
    RequestForm s (.setConfiguration d r v x l) (execSetConfiguration d r v x l s) := by
  unfold execSetConfiguration
  split
  · rw [bulkReset_eq, andThen_next]
    refine .configures d r v x l _ ?_
    split <;> rfl
  · exact .stalls _

theorem exec_requestForm {i : Instr} (hi : i.opClass = .setup) (s : State) : RequestForm s i (exec i s) := by
  cases i with
  | getStatus d r v x l =>
    change RequestForm s _ (execGetStatus d r v x l s)
    unfold execGetStatus
    split; · exact .stalls _
    split; · exact .replies _ _ _ _
    split
    · exact .replies _ _ _ _
    · exact .stalls _
  | clearFeature d r v x l =>
    change RequestForm s _ (execClearFeature d r v x l s)
    unfold execClearFeature
    split; · exact .stalls _
    split; · exact .acknowledges _ _ rfl rfl
    split
    · exact .acknowledges _ _ rfl rfl
    · exact .stalls _
  | setFeature d r v x l =>
    change RequestForm s _ (execSetFeature d r v x l s)
    unfold execSetFeature
    split; · exact .stalls _
    split; · exact .acknowledges _ _ rfl rfl
    split
    · exact .acknowledges _ _ rfl rfl
    · exact .stalls _
  | setAddress d r v x l =>
    change RequestForm s _ (execSetAddress d r v x l s)
    unfold execSetAddress
    split
    · exact .stalls _
    · exact .acknowledges _ _ rfl rfl
  | getDescriptorDevice d r n x l =>
    change RequestForm s _ (execGetDescriptorDevice d r n x l s)
    unfold execGetDescriptorDevice
    split
    · exact .replies _ _ _ _
    · exact .stalls _
  | getDescriptorConfiguration d r n x l =>
    change RequestForm s _ (execGetDescriptorConfiguration d r n x l s)
    unfold execGetDescriptorConfiguration
    split
    · exact .replies _ _ _ _
    · exact .stalls _
  | getDescriptorString d r n x l =>
    change RequestForm s _ (execGetDescriptorString d r n x l s)
    unfold execGetDescriptorString
    split
    · exact .replies _ _ _ _
    · exact .stalls _
  | getDescriptorOther d r t n x l => exact .stalls _
  | getConfiguration d r v x l => exact .replies _ _ _ _
  | setConfiguration d r v x l => exact execSetConfiguration_form d r v x l s
  | getInterface d r v x l =>
    change RequestForm s _ (execGetInterface d r v x l s)
    unfold execGetInterface
    split
    · exact .replies _ _ _ _
    · exact .stalls _
  | setInterface d r v x l =>
    change RequestForm s _ (execSetInterface d r v x l s)
    unfold execSetInterface
    split
    · exact .acknowledges _ _ rfl rfl
    · exact .stalls _
  | synchFrame d r v x l => exact .replies _ _ _ _
  | sendEncapsulatedCommand d r v x l => exact .acknowledges _ _ rfl rfl
  | getEncapsulatedResponse d r v x l => exact .replies _ _ _ _
  | setLineCoding d r v x l =>
    change RequestForm s _ (execSetLineCoding d r v x l s)
    unfold execSetLineCoding
    split
    · exact .acknowledges _ _ rfl rfl
    · exact .awaits _
  | getLineCoding d r v x l => exact .replies _ _ _ _
  | setControlLineState d r v x l => exact .acknowledges _ _ rfl rfl
  | _ => cases hi

/-! ### What completes -/

section
variable {s : State}

/-- A control request completes where the block owns the IN buffer of endpoint 0. -/
theorem RequestForm.completes {i : Instr} {r : Res} (h : RequestForm s i r) (ho : (s.bd .ep0in).own = .sw) :
    Completes r := by
  cases h with
  | stalls _ => exact ⟨_, rfl⟩
  | replies _ data wLength subst => exact ⟨_, startIn_eq_next.mpr ⟨ho, rfl⟩⟩
  | acknowledges _ u hbds hmem => exact ⟨_, statusIn_eq_next.mpr ⟨by rw [State.bd_congr hbds, ho], rfl⟩⟩
  | configures d r v x l u hin => exact ⟨_, statusIn_eq_next.mpr ⟨by rw [hin, ho], rfl⟩⟩
  | awaits _ => exact ⟨_, rfl⟩

/-- What is no control request is stalled by the dispatch of a SETUP packet. -/
theorem dispatchSetup_of_not_setup {i : Instr} (h : i.opClass ≠ .setup) (s : State) :
    dispatchSetup (.ok i) s = .next (raiseStall s) := by
  cases i <;> first | rfl | exact absurd rfl h

theorem dispatchSetup_completes (ho : (s.bd .ep0in).own = .sw) (p : Except DecodeError Instr) :
    Completes (dispatchSetup p s) := by
  cases p with
  | error e => exact ⟨_, rfl⟩
  | ok i =>
    by_cases hi : i.opClass = .setup
    · rw [dispatchSetup_eq_exec hi]
      exact (exec_requestForm hi s).completes ho
    · exact ⟨_, dispatchSetup_of_not_setup hi s⟩

theorem handleSetup_completes (hout : (s.bd .ep0out).own = .sw) (hin : (s.bd .ep0in).own = .sw) :
    Completes (handleSetup s) := by
  unfold handleSetup
  rw [memReadList_eq hout (show 0 + 8 ≤ Buf.ep0out.size s.cfg by
    rw [Nat.zero_add]; exact eight_le_ep0Size_bytes s.cfg.ep0Size)]
  exact dispatchSetup_completes (s := leaveStall s) hin _

/-- The data stage of SET_LINE_CODING reads within the OUT buffer, whatever its count, and then acknowledges. -/
theorem lineCodingData_eq (hout : (s.bd .ep0out).own = .sw) : ∃ lc : Vector Byte 7, lineCodingData s =
    statusIn { s with dev := { s.dev with lineCoding := lc }, ctl := { s.ctl with lcPending := false } } := by
  have h8 : 8 ≤ Buf.ep0out.size s.cfg := eight_le_ep0Size_bytes s.cfg.ep0Size
  unfold lineCodingData
  rw [memReadList_eq hout (by omega)]
  exact ⟨_, rfl⟩

theorem handleEp0Data_completes (hout : (s.bd .ep0out).own = .sw)
    (hin : s.ctl.lcPending = true → (s.bd .ep0in).own = .sw) : Completes (handleEp0Data s) := by
  unfold handleEp0Data
  split
  · next hl =>
    obtain ⟨lc, hlc⟩ := lineCodingData_eq hout
    rw [hlc]
    exact ⟨_, statusIn_eq_next.mpr ⟨hin hl, rfl⟩⟩
  · exact ⟨_, rfl⟩

/-- An event of the OUT buffer is handled where the block owns that buffer, and the IN buffer where it may arm it. -/
theorem handleEp0Out_completes (hout : (s.bd .ep0out).own = .sw)
    (hin : s.bds.ep0setup = true ∨ s.ctl.lcPending = true → (s.bd .ep0in).own = .sw) :
    Completes (handleEp0Out s) := by
  have hrearm {r : Res} (hr : Completes r) (hkeep : ∀ u, r = .next u → u.bd .ep0out = s.bd .ep0out) :
      Completes (andThen r rearmEp0out) := by
    obtain ⟨u, hu⟩ := hr
    rw [hu, andThen_next]
    exact ⟨_, rearmEp0out_eq_next.mpr ⟨by rw [hkeep u hu, hout], rfl⟩⟩
  unfold handleEp0Out
  rw [if_neg (by rw [hout]; nofun)]
  refine hrearm ?_ fun u hu => ?_
  · split
    · next hs => exact handleSetup_completes hout (hin (.inl hs))
    · exact handleEp0Data_completes hout fun hl => hin (.inr hl)
  · split at hu
    · exact (handleSetup_next hu).ep0.2.1
    · rcases handleEp0Data_next hu with ⟨-, -, lc, rfl⟩ | ⟨-, rfl⟩
      · rfl
      · rfl

theorem continueIn_completes (ho : (s.bd .ep0in).own = .sw) (x : Xfer) : Completes (continueIn x s) := by
  unfold continueIn
  split
  · exact ⟨_, sendChunk_eq_next.mpr ⟨ho, rfl⟩⟩
  · split
    · exact ⟨_, arm_eq ho⟩
    · exact ⟨_, rfl⟩

theorem handleEp0In_completes (ho : (s.bd .ep0in).own = .sw) : Completes (handleEp0In s) := by
  unfold handleEp0In
  split
  · exact ⟨_, rfl⟩
  · split
    · exact continueIn_completes ho _
    · exact ⟨_, rfl⟩

/-- The handling of the oldest event meets no buffer of the SIE's. -/
theorem State.Ep0InStep.handleEvent_completes (h : s.Ep0InStep) {ev : SieEvent} {q : List SieEvent}
    (hs : s.sie.queue = ev :: q) : Completes (handleEvent ev (s.withQueue q)) := by
  have hmem : ev ∈ s.sie.queue := by rw [hs]; exact List.mem_cons_self
  cases ev with
  | busReset =>
    have hall := h.reset (State.resetWaits_eq_true.mpr hmem)
    exact ⟨_, handleBusReset_eq_next.mpr ⟨hall _, hall _, rfl⟩⟩
  | doneEp0out =>
    refine handleEp0Out_completes (h.out hmem).1 fun hin => ?_
    rcases hin with hst | hlc
    · exact (h.setup hst).1
    · exact (h.lineCoding hlc).elim (fun hst => (h.setup hst).1) And.left
  | doneEp0in => exact handleEp0In_completes (h.in_ hmem).1
  | doneBin k => exact ⟨_, rfl⟩
  | doneBout k => exact ⟨_, rfl⟩

theorem State.Ep0InStep.serviceSie_completes (h : s.Ep0InStep) : Completes (serviceSie s) := by
  unfold serviceSie
  split
  · exact ⟨_, rfl⟩
  · next hs => exact h.handleEvent_completes hs

/-- The idle step and a flush hand over a buffer that the block owns (10_state.md R45). -/
theorem State.Inv.idleStep_completes (h : s.Inv) : Completes (idleStep s) := by
  unfold idleStep
  split
  · dsimp only
    split
    · exact ⟨_, flush_eq h.fillOwned⟩
    · exact ⟨_, rfl⟩
  · exact ⟨_, rfl⟩

theorem State.Inv.serviceSie {u : State} (h : s.Inv) (hu : serviceSie s = .next u) : u.Inv := by
  rcases serviceSie_next hu with rfl | ⟨ev, q, -, ho⟩
  · exact h
  · exact ho.inv (h.withQueue q)

theorem execUsbPoll_completes (hi : s.Inv) (h : s.Ep0InStep) : Completes (execUsbPoll s) := by
  obtain ⟨u, hu⟩ := h.serviceSie_completes
  obtain ⟨v, hv⟩ := bulkOutZeroLength_completes u
  have hvi : v.Inv := (bulkOutZeroLength_act hv).inv (hi.serviceSie hu)
  obtain ⟨w, hw⟩ := hvi.idleStep_completes
  exact ⟨_, execUsbPoll_eq_next.mpr ⟨u, v, w, hu, hv, hw, rfl⟩⟩

theorem execUsbPut_completes (h : s.Inv) (b : Byte) : Completes (execUsbPut b s) := by
  unfold execUsbPut
  split
  · next hr =>
    rw [putByte_eq_next.mpr ⟨(State.inReady_eq_true.mp hr).2, h.fill, rfl⟩]
    exact ⟨_, rfl⟩
  · exact ⟨_, rfl⟩

theorem execUsbGet_completes (h : s.Inv) : Completes (execUsbGet s) := by
  unfold execUsbGet
  split
  · next hd =>
    obtain ⟨-, ho, hpos⟩ := State.outHasData_eq_true.mp hd
    exact ⟨_, getByte_eq_next.mpr ⟨ho, Nat.lt_of_lt_of_le hpos (h.count (.bout s.bout.active)), rfl⟩⟩
  · exact ⟨_, rfl⟩

/-- An operation over the serial bus touches no buffer. -/
theorem exec_completes_of_bus {i : Instr} (hi : usesUsb i = false) (s : State) : Completes (exec i s) := by
  cases i with
  | canSetPreset k =>
    change Completes (execCanSetPreset k s)
    unfold execCanSetPreset
    split <;> exact ⟨_, rfl⟩
  | canSend flags id dlc data =>
    change Completes (execCanSend flags id dlc data s)
    unfold execCanSend
    split
    · exact ⟨_, rfl⟩
    · simp only
      split <;> exact ⟨_, rfl⟩
  | canReceive =>
    change Completes (execCanReceive s)
    unfold execCanReceive
    simp only
    split <;> exact ⟨_, rfl⟩
  | canReset | canReadReg | canWriteReg | canBitModify | canReadStatus | canInit | canSetTiming | canSetMask
  | canSetCode | canReadErrflags | spiReset | spiRead | spiWrite | spiBitModify | spiReadStatus | spiLoadTx
  | spiReadRx => exact ⟨_, rfl⟩
  | _ => cases hi

/-- Every operation that a step runs completes, but for the control requests, which only a poll runs. -/
theorem exec_completes {i : Instr} (hc : i.opClass ≠ .setup) (hi : s.Inv) (h : s.Ep0InStep) :
    Completes (exec i s) := by
  by_cases hu : usesUsb i = true
  · cases i with
    | usbPoll => exact execUsbPoll_completes hi h
    | usbReady => exact ⟨_, rfl⟩
    | usbPut b => exact execUsbPut_completes hi b
    | usbFlush =>
      change Completes (execUsbFlush s)
      unfold execUsbFlush
      rw [flush_eq hi.fillOwned]
      exact ⟨_, rfl⟩
    | usbHasData => exact ⟨_, rfl⟩
    | usbGet => exact execUsbGet_completes hi
    | _ => simp [usesUsb, Instr.opClass] at hu hc
  · exact exec_completes_of_bus (by simpa using hu) s

theorem Completes.ne_fault {r : Res} (h : Completes r) (e : Fault) : r ≠ .fault e := by
  obtain ⟨t, rfl⟩ := h
  nofun

theorem andThen_ne_fault {r : Res} {f : State → State} (h : ∀ e, r ≠ .fault e) (e : Fault) :
    andThen r (fun t => .next (f t)) ≠ .fault e := by
  cases r with
  | next t => nofun
  | fault e' => exact absurd rfl (h e')
  | refused e' => nofun

theorem stepBench_ne_fault (bytes : List Byte) (hi : s.Inv) (h : s.Ep0InStep) (e : Fault) :
    stepBench bytes s ≠ .fault e := by
  unfold stepBench
  split
  · next hd => exact (exec_completes (by rw [decodeSerial_opClass hd]; nofun) hi h).ne_fault e
  · nofun

theorem stepInput_ne_fault (i : Input) (hi : s.Inv) (h : s.Ep0InStep) (e : Fault) : stepInput i s ≠ .fault e := by
  cases i with
  | request bytes =>
    change stepRequest bytes s ≠ _
    unfold stepRequest
    split
    · next hd => exact (exec_completes (by rw [(decodeClient_ok hd).1]; nofun) hi h).ne_fault e
    · nofun
    · nofun
  | token k => nofun
  | outside o => nofun
  | tick => nofun

theorem step_ne_fault (hi : s.Inv) (h : s.Ep0InStep) (e : Fault) : step s ≠ .fault e := by
  unfold step nextInput
  split
  · exact andThen_ne_fault (stepBench_ne_fault _ (hi.accept _ none) (h.accept _ none)) e
  · nofun
  · exact andThen_ne_fault (stepInput_ne_fault _ (hi.accept _ s.bench) (h.accept _ s.bench)) e

end

/-- Settles O12: every operation that a step runs completes, since the block owns what it arms and reads; and what each
input leaves is brought back into step by the settling of the SIE. -/
theorem noStepFaults : Obligations.NoStepFaults :=
  fun _ hi h => ⟨step_ne_fault hi h, fun _ ht => h.step ht⟩

end Sys2Proof.Machine
end

section
/-! PROOF. What an operation spares of the SIE's buffers (O18), and where it meets one (O19). -/

namespace Sys2Proof.Machine

/-! ### What an operation spares -/

section
variable {s t : State} {b : Buf}

theorem Spares.of_eq (hbds : t.bds = s.bds) (hmem : t.mem = s.mem) : Spares s t b :=
  ⟨State.bd_congr hbds b, fun _ _ => by rw [State.byteAt, hmem]; rfl⟩

theorem Spares.trans {u : State} (h : Spares s t b) (k : Spares t u b) : Spares s u b :=
  ⟨k.1.trans h.1, fun off ho => (k.2 off ho).trans (h.2 off ho)⟩

/-- A byte appended to the active bulk-IN buffer is in no other buffer. -/
theorem appended_spares (hm : s.mem.wf = true) (v : Byte) (hb : b ≠ .bin s.bin.active)
    (hf : s.bin.fill < s.cfg.bulkSize.val) : Spares s (appended v s) b :=
  ⟨rfl, fun _ hoff => Memory.read_write_other _ _ _
    (Buf.disjoint hb hoff (Nat.lt_of_lt_of_le hf s.cfg.bulkSize.property.2)) hm⟩

theorem handedOver_spares (hb : b ≠ .bin s.bin.active) : Spares s (handedOver s) b := spares_giveBack hb rfl rfl

/-- The bulk manager writes and arms what the block owns. -/
theorem BulkAct.spares (h : BulkAct s t) (hm : s.mem.wf = true) (ho : (s.bd b).own = .sie) : Spares s t b := by
  cases h with
  | appends v hc hsw hf => exact appended_spares hm v (State.ne_of_own hsw ho).symm (by omega)
  | fills v hc hsw hf =>
    have hb : b ≠ .bin s.bin.active := (State.ne_of_own hsw ho).symm
    exact (appended_spares hm v hb (by omega)).trans (handedOver_spares (s := appended v s) hb)
  | flushes hf hsw => exact handedOver_spares (State.ne_of_own hsw ho).symm
  | passes hc hsw => exact spares_giveBack (State.ne_of_own hsw ho).symm rfl rfl
  | _ => exact .of_eq rfl rfl

/-- A control request writes and arms the IN buffer of endpoint 0, which is then the block's; SET_CONFIGURATION is set
aside, since it takes the bulk buffers back. -/
theorem RequestForm.spares {i : Instr} {r : Res} (h : RequestForm s i r) (ht : r = .next t)
    (hm : s.mem.wf = true) (hi : ∀ d r v x l, i ≠ .setConfiguration d r v x l) (ho : (s.bd b).own = .sie) :
    Spares s t b := by
  cases h with
  | stalls _ => cases ht; exact .of_eq rfl rfl
  | awaits _ => cases ht; exact .of_eq rfl rfl
  | configures d r v x l u hin => exact absurd rfl (hi d r v x l)
  | replies _ data wLength subst =>
    obtain ⟨hsw, rfl⟩ := startIn_eq_next.mp ht
    have hlen : (chunkBytes s.cfg (newXfer s.cfg data wLength subst)).length ≤ 64 :=
      (length_chunkBytes_le _ _).trans ((Nat.min_le_left _ _).trans (ep0Size_bytes_le _))
    exact spares_deliver hm (State.ne_of_own hsw ho).symm rfl rfl hlen
  | acknowledges _ u hbds hmem =>
    obtain ⟨hsw, rfl⟩ := statusIn_eq_next.mp ht
    rw [State.bd_congr hbds] at hsw
    exact spares_giveBack (State.ne_of_own hsw ho).symm (by rw [State.setBd_bds, hbds]) hmem

theorem exec_spares {i : Instr} (hp : i ≠ .usbPoll) (hi : ∀ d r v x l, i ≠ .setConfiguration d r v x l)
    (ht : exec i s = .next t) (hm : s.mem.wf = true) (ho : (s.bd b).own = .sie) : Spares s t b := by
  by_cases hs : i.opClass = .setup
  · exact (exec_requestForm hs s).spares ht hm hi ho
  · by_cases hu : usesUsb i = true
    · obtain ⟨st, r, u, hact, rfl⟩ := exec_act hu hs hp ht
      exact (hact.spares hm ho).trans (.of_eq rfl rfl)
    · have hbus := exec_busOnly (by simpa using hu) ht
      exact .of_eq hbus.bds hbus.mem

end

/-- Settles O18: an operation writes and arms only what the block owns, and the SIE's buffers lie apart from that. -/
theorem operationsSpareWhatTheSieOwns : Obligations.OperationsSpareWhatTheSieOwns :=
  fun _ _ _ _ hinv hp hi ht ho => exec_spares hp hi ht hinv.memory ho

/-! ### Where an operation meets a buffer of the SIE's -/

section
variable {s : State}

theorem andThen_of_fault {r : Res} {f : State → Res} {e : Fault} (h : r = .fault e) : andThen r f = .fault e := by
  rw [h, andThen_fault]

theorem arm_fault {b : Buf} {n : Nat} (h : (s.bd b).own = .sie) : arm b n s = .fault (.ownership b) := if_pos h

theorem memWrite_fault {b : Buf} {off : Nat} {v : Byte} (h : (s.bd b).own = .sie) :
    memWrite b off v s = .fault (.ownership b) := if_pos h

theorem statusIn_fault (h : (s.bd .ep0in).own = .sie) : statusIn s = .fault (.ownership .ep0in) := arm_fault h

/-- A packet meets the buffer at its first byte, or, empty, at the arming. -/
theorem sendChunk_fault (h : (s.bd .ep0in).own = .sie) (x : Xfer) : sendChunk x s = .fault (.ownership .ep0in) := by
  unfold sendChunk
  cases hc : chunkBytes s.cfg x with
  | nil => simp only [memWriteList, andThen_next, arm_fault h, andThen_fault]
  | cons v vs => simp only [memWriteList, memWrite_fault h, andThen_fault]

theorem startIn_fault (h : (s.bd .ep0in).own = .sie) (data : List Byte) (wLength : Half) (subst : Bool) :
    startIn data wLength subst s = .fault (.ownership .ep0in) :=
  sendChunk_fault (s := { s with ctl := { s.ctl with xfer := some (newXfer s.cfg data wLength subst) } }) h _

theorem continueIn_fault (h : (s.bd .ep0in).own = .sie) {x : Xfer} (hx : 0 < x.rem ∨ x.zlpDue = true) :
    continueIn x s = .fault (.ownership .ep0in) := by
  unfold continueIn
  split
  · exact sendChunk_fault h x
  · next hr =>
    rw [if_pos (hx.resolve_left hr)]
    exact arm_fault h

/-! ### The requests -/

theorem isEndpoint0_of_mem {e : Byte} (h : e ∈ ([0x00, 0x80] : List Byte)) : isEndpoint0 e = true := by
  rcases List.mem_pair.mp h with rfl | rfl <;> rfl

/-- An endpoint's address names an endpoint of the parameters, or endpoint 0. -/
theorem endpoint_cases {cfg : Params} {e : Byte} (h : endpointOf cfg e ≠ none ∨ e ∈ ([0x00, 0x80] : List Byte)) :
    (∃ p, endpointOf cfg e = some p) ∨ (endpointOf cfg e = none ∧ isEndpoint0 e = true) := by
  cases hp : endpointOf cfg e with
  | some p => exact .inl ⟨p, rfl⟩
  | none => exact .inr ⟨rfl, isEndpoint0_of_mem (h.resolve_left (absurd hp))⟩

section
variable (h : (s.bd .ep0in).own = .sie) (d : BitVec 1) (r : BitVec 5) (v x l : Half)
include h

theorem execGetStatus_fault (hx : endpointOf s.cfg (lowByte x) ≠ none ∨ lowByte x ∈ ([0x00, 0x80] : List Byte)) :
    execGetStatus d 2 v x l s = .fault (.ownership .ep0in) := by
  unfold execGetStatus
  rw [if_neg (not_not.mpr rfl)]
  split
  · exact startIn_fault h _ _ _
  · next h0 =>
    obtain ⟨p, hp⟩ := (endpoint_cases hx).resolve_right fun hn => h0 hn.2
    rw [hp]
    exact startIn_fault h _ _ _

theorem execSetFeature_fault (hx : endpointOf s.cfg (lowByte x) ≠ none ∨ lowByte x ∈ ([0x00, 0x80] : List Byte)) :
    execSetFeature d 2 0 x l s = .fault (.ownership .ep0in) := by
  unfold execSetFeature
  rw [if_neg (by simp)]
  rcases endpoint_cases hx with ⟨p, hp⟩ | ⟨hp, h0⟩
  · rw [hp]
    exact statusIn_fault (s := setHalt p true s) h
  · rw [hp]
    exact (if_pos h0).trans (statusIn_fault h)

theorem execClearFeature_fault (hx : endpointOf s.cfg (lowByte x) ≠ none ∨ lowByte x ∈ ([0x00, 0x80] : List Byte)) :
    execClearFeature d 2 0 x l s = .fault (.ownership .ep0in) := by
  unfold execClearFeature
  rw [if_neg (by simp)]
  rcases endpoint_cases hx with ⟨p, hp⟩ | ⟨hp, h0⟩
  · rw [hp]
    exact statusIn_fault (s := toggleReset p (setHalt p false s)) h
  · rw [hp]
    exact (if_pos h0).trans (statusIn_fault h)

theorem execSetAddress_fault (hv : v.toNat ≤ 127) : execSetAddress d r v x l s = .fault (.ownership .ep0in) :=
  (if_neg (Nat.not_lt.mpr hv)).trans (statusIn_fault (s := { s with ctl := _ }) h)

theorem execGetDescriptorString_fault {i : Byte} {str : List Byte}
    (hstr : (descriptors s.cfg).strings[i.toNat]? = some (some str)) :
    execGetDescriptorString d r i x l s = .fault (.ownership .ep0in) := by
  have hs : stringOf (descriptors s.cfg) i.toNat = some str := by rw [stringOf, hstr]; rfl
  unfold execGetDescriptorString
  rw [hs]
  exact startIn_fault h _ _ _

theorem execSetConfiguration_fault (hv : lowByte v = 0 ∨ lowByte v = s.cfg.configValue) :
    execSetConfiguration d r v x l s = .fault (.ownership .ep0in) := by
  unfold execSetConfiguration
  rw [if_pos hv, bulkReset_eq, andThen_next]
  refine statusIn_fault ?_
  split <;> exact h

end

/-! ### The events of a poll -/

/-- A poll stops where the handling of the oldest event does. -/
theorem execUsbPoll_fault {ev : SieEvent} {q : List SieEvent} {e : Fault} (hs : s.sie.queue = ev :: q)
    (h : handleEvent ev (s.withQueue q) = .fault e) : execUsbPoll s = .fault e := by
  have hservice : serviceSie s = .fault e := by
    unfold serviceSie
    rw [hs]
    exact h
  exact andThen_of_fault hservice

theorem handleEp0In_fault (h : (s.bd .ep0in).own = .sie) (ha : s.ctl.pendingAddr = none)
    (hx : ∃ x, s.ctl.xfer = some x ∧ (0 < x.rem ∨ x.zlpDue = true)) :
    handleEp0In s = .fault (.ownership .ep0in) := by
  obtain ⟨x, hx, hmore⟩ := hx
  unfold handleEp0In
  rw [ha, hx]
  exact continueIn_fault h hmore

theorem handleEp0Out_fault_of_lineCoding (hin : (s.bd .ep0in).own = .sie) (hout : (s.bd .ep0out).own = .sw)
    (hs : s.bds.ep0setup = false) (hl : s.ctl.lcPending = true) :
    handleEp0Out s = .fault (.ownership .ep0in) := by
  have hdata : handleEp0Data s = .fault (.ownership .ep0in) := by
    obtain ⟨lc, hlc⟩ := lineCodingData_eq hout
    rw [handleEp0Data, if_pos hl, hlc]
    exact statusIn_fault hin
  unfold handleEp0Out
  rw [if_neg (by rw [hout]; nofun), hs]
  exact andThen_of_fault hdata

theorem handleBusReset_fault_of_ep0in (hin : (s.bd .ep0in).own = .sie) :
    handleBusReset s = .fault (.ownership .ep0in) := andThen_of_fault (if_pos hin)

theorem handleBusReset_fault_of_ep0out (hin : (s.bd .ep0in).own = .sw) (hout : (s.bd .ep0out).own = .sie) :
    handleBusReset s = .fault (.ownership .ep0out) :=
  have hne : ¬ (s.bd .ep0in).own = .sie := by rw [hin]; nofun
  andThen_of_fault ((if_neg hne).trans (if_pos hout))

end

/-- Settles O19: each of the requests ends in a reply or a status packet, and each of the events in one or in the arming
of endpoint 0; the arming of a buffer that the SIE owns stops the machine. -/
theorem armingAnOwnedBufferFaults : Obligations.ArmingAnOwnedBufferFaults := by
  refine fun s => ⟨fun h d r v x l => ⟨?device, ?configuration, ?string, ?endpoint, ?address, ?configure, ?interface,
    ?getConfiguration, ?synchFrame, ?sendCommand, ?getResponse, ?setLineCoding, ?getLineCoding, ?lineState⟩, ?sent,
    ?lineCodingData, ?resetIn, ?received, ?resetOut⟩
  case device => exact startIn_fault h _ _ _
  case configuration => exact startIn_fault h _ _ _
  case string => exact fun i str hstr => execGetDescriptorString_fault h d r x l hstr
  case endpoint =>
    exact fun hx =>
      ⟨execGetStatus_fault h d v x l hx, execSetFeature_fault h d x l hx, execClearFeature_fault h d x l hx⟩
  case address => exact execSetAddress_fault h d r v x l
  case configure => exact execSetConfiguration_fault h d r v x l
  case interface =>
    exact fun hx => ⟨(if_pos hx).trans (startIn_fault h _ _ _), (if_pos ⟨hx, rfl⟩).trans (statusIn_fault h)⟩
  case getConfiguration => exact startIn_fault h _ _ _
  case synchFrame => exact startIn_fault h _ _ _
  case sendCommand => exact statusIn_fault h
  case getResponse => exact startIn_fault h _ _ _
  case setLineCoding => exact statusIn_fault h
  case getLineCoding => exact startIn_fault h _ _ _
  case lineState => exact statusIn_fault h
  case sent => exact fun q h hq ha hx => execUsbPoll_fault hq (handleEp0In_fault h ha hx)
  case lineCodingData =>
    exact fun q hin hout hq hs hl => execUsbPoll_fault hq (handleEp0Out_fault_of_lineCoding hin hout hs hl)
  case resetIn => exact fun q hin hq => execUsbPoll_fault hq (handleBusReset_fault_of_ep0in hin)
  case received => exact fun q hout hq => execUsbPoll_fault hq (if_pos hout)
  case resetOut => exact fun q hin hout hq => execUsbPoll_fault hq (handleBusReset_fault_of_ep0out hin hout)

end Sys2Proof.Machine
end

section
/-! PROOF. The encoding tables round trip (30_encoding.md): the fields of a SETUP packet and the byte order, then each
decoder on what the encoder writes, and the encoder on what each decoder accepts. -/

namespace Sys2Proof.Machine

/-! ### Fields and byte order (30_encoding.md R141, R150, R151) -/

@[simp] theorem lowByte_le16 (lo hi : Byte) : lowByte (le16 lo hi) = lo := BitVec.extractLsb'_append_eq_right

@[simp] theorem highByte_le16 (lo hi : Byte) : highByte (le16 lo hi) = hi := BitVec.extractLsb'_append_eq_left

@[simp] theorem le16_lowByte_highByte (h : Half) : le16 (lowByte h) (highByte h) = h :=
  (BitVec.extractLsb'_append_extractLsb'_eq_extractLsb' rfl).trans BitVec.extractLsb'_eq_self

@[simp] theorem bmDir_bmByte (dir : BitVec 1) (type : BitVec 2) (recip : BitVec 5) :
    bmDir (bmByte dir type recip) = dir :=
  (BitVec.extractLsb'_append_eq_of_le (by decide)).trans BitVec.extractLsb'_append_eq_left

@[simp] theorem bmType_bmByte (dir : BitVec 1) (type : BitVec 2) (recip : BitVec 5) :
    bmType (bmByte dir type recip) = type :=
  (BitVec.extractLsb'_append_eq_of_le (by decide)).trans BitVec.extractLsb'_append_eq_right

@[simp] theorem bmRecip_bmByte (dir : BitVec 1) (type : BitVec 2) (recip : BitVec 5) :
    bmRecip (bmByte dir type recip) = recip := BitVec.extractLsb'_append_eq_right

@[simp] theorem bmByte_fields (bm : Byte) : bmByte (bmDir bm) (bmType bm) (bmRecip bm) = bm := by
  revert bm; decide

@[simp] theorem be32_byteOf32 (w : BitVec 32) :
    be32 (byteOf32 w 3) (byteOf32 w 2) (byteOf32 w 1) (byteOf32 w 0) = w := by
  have high : byteOf32 w 3 ++ byteOf32 w 2 = w.extractLsb' 16 (8 + 8) :=
    BitVec.extractLsb'_append_extractLsb'_eq_extractLsb' rfl
  have upper : w.extractLsb' 16 (8 + 8) ++ byteOf32 w 1 = w.extractLsb' 8 (8 + 8 + 8) :=
    BitVec.extractLsb'_append_extractLsb'_eq_extractLsb' rfl
  have all : w.extractLsb' 8 (8 + 8 + 8) ++ byteOf32 w 0 = w.extractLsb' 0 (8 + 8 + 8 + 8) :=
    BitVec.extractLsb'_append_extractLsb'_eq_extractLsb' rfl
  rw [be32, high, upper, all]
  exact BitVec.extractLsb'_eq_self

section
variable (b3 b2 b1 b0 : Byte)

@[simp] theorem byteOf32_be32_zero : byteOf32 (be32 b3 b2 b1 b0) 0 = b0 := BitVec.extractLsb'_append_eq_right

@[simp] theorem byteOf32_be32_one : byteOf32 (be32 b3 b2 b1 b0) 1 = b1 :=
  (BitVec.extractLsb'_append_eq_of_le (by decide)).trans BitVec.extractLsb'_append_eq_right

@[simp] theorem byteOf32_be32_two : byteOf32 (be32 b3 b2 b1 b0) 2 = b2 :=
  (BitVec.extractLsb'_append_eq_of_le (by decide)).trans <|
    (BitVec.extractLsb'_append_eq_of_le (by decide)).trans BitVec.extractLsb'_append_eq_right

@[simp] theorem byteOf32_be32_three : byteOf32 (be32 b3 b2 b1 b0) 3 = b3 :=
  (BitVec.extractLsb'_append_eq_of_le (by decide)).trans <|
    (BitVec.extractLsb'_append_eq_of_le (by decide)).trans BitVec.extractLsb'_append_eq_left

end

/-! ### Decoding what the encoder writes -/

/-- The frame operand keeps its identifier and its eight data bytes (30_encoding.md R143). -/
theorem frameArgs_encode (m : ChipTable) (flags : Byte) (id : BitVec 32) (dlc : Byte) (data : Vector Byte 8) :
    frameArgs 0x30 (encode m (.canSend flags id dlc data)).tail = .ok (.canSend flags id dlc data) := by
  have hdata : #v[data[0], data[1], data[2], data[3], data[4], data[5], data[6], data[7]] = data := by
    ext i hi
    match i, hi with
    | 0, _ | 1, _ | 2, _ | 3, _ | 4, _ | 5, _ | 6, _ | 7, _ => rfl
  simp only [encode, List.tail_cons, frameArgs, be32_byteOf32, hdata]

theorem decodeClient_encode (m : ChipTable) {i : Instr} (hc : i.opClass = .client) :
    decodeClient (encode m i) = .ok i := by
  cases i with
  | usbPoll | usbReady | usbPut | usbFlush | usbHasData | usbGet => rfl
  | canReset | canReadReg | canWriteReg | canBitModify | canReadStatus => rfl
  | canInit | canSetTiming | canSetPreset | canSetMask | canSetCode | canReadErrflags | canReceive => rfl
  | canSend flags id dlc data => exact frameArgs_encode m flags id dlc data
  | _ => cases hc

/-- A SETUP packet of the encoder is looked up in the table of its type, with its fields as they were given. -/
theorem decodeSetup_encodeSetup (dir : BitVec 1) (recip : BitVec 5) (rq : Byte) (v x l : Half) :
    decodeSetup (encodeSetup dir 0 recip rq v x l) = standardRequest (bmByte dir 0 recip) rq v x l ∧
      decodeSetup (encodeSetup dir 1 recip rq v x l) = classRequest (bmByte dir 1 recip) rq v x l := by
  simp [decodeSetup, encodeSetup]

theorem dtypeIsOther_iff {t : Byte} : dtypeIsOther t = true ↔ t ≠ 1 ∧ t ≠ 2 ∧ t ≠ 3 := by
  simp [dtypeIsOther, and_assoc]

/-- The descriptor type selects the row of GET_DESCRIPTOR (30_encoding.md R154). -/
theorem descriptorRequest_other (dir : BitVec 1) (recip : BitVec 5) {t : Byte} (i : Byte) (x l : Half)
    (ht : dtypeIsOther t = true) : descriptorRequest dir recip t i x l = .getDescriptorOther dir recip t i x l := by
  obtain ⟨h1, h2, h3⟩ := dtypeIsOther_iff.mp ht
  rw [descriptorRequest, if_neg h1, if_neg h2, if_neg h3]

theorem decodeSetup_encode (m : ChipTable) {i : Instr} (hw : i.wellFormed = true) (hc : i.opClass = .setup) :
    decodeSetup (encode m i) = .ok i := by
  cases i with
  | getStatus | clearFeature | setFeature | setAddress | getConfiguration | setConfiguration | getInterface
  | setInterface | synchFrame =>
    refine (decodeSetup_encodeSetup _ _ _ _ _ _).1.trans ?_
    simp [standardRequest]
  | getDescriptorDevice | getDescriptorConfiguration | getDescriptorString =>
    refine (decodeSetup_encodeSetup _ _ _ _ _ _).1.trans ?_
    simp [standardRequest, descriptorRequest]
  | getDescriptorOther dir recip t i x l =>
    refine (decodeSetup_encodeSetup _ _ _ _ _ _).1.trans ?_
    simp [standardRequest, descriptorRequest_other dir recip i x l hw]
  | sendEncapsulatedCommand | getEncapsulatedResponse | setLineCoding | getLineCoding | setControlLineState =>
    refine (decodeSetup_encodeSetup _ _ _ _ _ _).2.trans ?_
    simp [classRequest]
  | _ => cases hc

/-- The command bytes of a chip in R161's order. -/
theorem commands_eq (m : ChipTable) : m.commands =
    [m.cmdReset, m.cmdRead, m.cmdWrite, m.cmdBitModify, m.cmdReadStatus, m.cmdLoadTx[0], m.cmdLoadTx[1], m.cmdLoadTx[2],
      m.cmdReadRx[0], m.cmdReadRx[1]] := by
  refine List.ext_getElem (by simp [ChipTable.commands]) fun i _ hi => ?_
  match i, hi with
  | 0, _ | 1, _ | 2, _ | 3, _ | 4, _ | 5, _ | 6, _ | 7, _ | 8, _ | 9, _ => simp [ChipTable.commands]

theorem decodeLoadTx_of_ok (cmd : Byte) (x : Fin 3) {ds : List Byte} (h : loadTxLengthOk ds = true) :
    decodeLoadTx cmd x ds = .ok (.spiLoadTx x ds) := if_pos h

theorem decodeWrite_of_ok (cmd a : Byte) {ds : List Byte} (h : writeLengthOk ds = true) :
    decodeWrite cmd (a :: ds) = .ok (.spiWrite a ds) := by
  cases ds with
  | nil => cases h
  | cons d ds => rfl

/-- With command bytes that differ, a command byte of the chip selects the form of its own command (30_encoding.md
R161). -/
theorem decodeSerial_cons {m : ChipTable} (hm : m.commands.Nodup) (rest : List Byte) :
    decodeSerial m (m.cmdReset :: rest) = args0 m.cmdReset .spiReset rest ∧
      decodeSerial m (m.cmdRead :: rest) = decodeRead m.cmdRead rest ∧
      decodeSerial m (m.cmdWrite :: rest) = decodeWrite m.cmdWrite rest ∧
      decodeSerial m (m.cmdBitModify :: rest) = args3 m.cmdBitModify .spiBitModify rest ∧
      decodeSerial m (m.cmdReadStatus :: rest) = decodeReadStatus m.cmdReadStatus rest ∧
      (∀ x : Fin 3, decodeSerial m (m.cmdLoadTx[x] :: rest) = decodeLoadTx m.cmdLoadTx[x] x rest) ∧
      ∀ b : Fin 2, decodeSerial m (m.cmdReadRx[b] :: rest) = decodeReadRx m.cmdReadRx[b] b rest := by
  -- reversed, the list says of each command byte that it is none of those the decoder compares before it
  have hearlier := List.nodup_reverse.mpr hm
  simp only [commands_eq, List.reverse_cons, List.reverse_nil, List.nil_append, List.cons_append, List.nodup_cons,
    List.mem_cons, List.not_mem_nil, or_false, not_or, not_false_eq_true, List.nodup_nil, and_self,
    and_true] at hearlier
  refine ⟨?_, ?_, ?_, ?_, ?_, fun x => ?_, fun b => ?_⟩
  · simp [decodeSerial]
  · simp [decodeSerial, hearlier]
  · simp [decodeSerial, hearlier]
  · simp [decodeSerial, hearlier]
  · simp [decodeSerial, hearlier]
  · match x with
    | 0 | 1 | 2 => simp [decodeSerial, hearlier]
  · match b with
    | 0 | 1 => simp [decodeSerial, hearlier]

theorem decodeSerial_encode {m : ChipTable} (hm : m.commands.Nodup) {i : Instr} (hw : i.wellFormed = true)
    (hc : i.opClass = .serial) : decodeSerial m (encode m i) = .ok i := by
  obtain ⟨hreset, hread, hwrite, hmodify, hstatus, hload, hrx⟩ := decodeSerial_cons hm (encode m i).tail
  cases i with
  | spiReset => exact hreset
  | spiRead a => exact hread
  | spiWrite a ds => exact hwrite.trans (decodeWrite_of_ok _ a hw)
  | spiBitModify a k d => exact hmodify
  | spiReadStatus => exact hstatus
  | spiLoadTx x ds => exact (hload x).trans (decodeLoadTx_of_ok _ x hw)
  | spiReadRx b => exact hrx b
  | _ => cases hc

/-- Settles O1: each class's decoder undoes its part of the encoder; for the serial class a command byte selects its own
command, since no two are the same. -/
theorem decodeOfEncode : Obligations.DecodeOfEncode := by
  refine ⟨by decide, fun m hm i hw => ?_⟩
  cases hc : i.opClass with
  | client => exact decodeClient_encode m hc
  | setup => exact decodeSetup_encode m hw hc
  | serial => exact decodeSerial_encode hm hw hc

/-! ### Encoding what a decoder accepts -/

/-- The bytes are the encoding of `i`, a well-formed operation of class `c`. -/
structure IsEncoding (m : ChipTable) (c : OpClass) (i : Instr) (bytes : List Byte) : Prop where
  wellFormed : i.wellFormed = true
  opClass : i.opClass = c
  encode : encode m i = bytes

/-! ### Operand bytes -/

section
variable {m : ChipTable} {c : OpClass} {first : Byte} {bytes : List Byte} {j : Instr}

theorem args0_isEncoding {i : Instr} (h : args0 first i bytes = .ok j) (hi : IsEncoding m c i [first]) :
    IsEncoding m c j (first :: bytes) := by
  unfold args0 at h
  split at h <;> cases h
  exact hi

theorem args1_isEncoding {f : Byte → Instr} (h : args1 first f bytes = .ok j)
    (hf : ∀ a, IsEncoding m c (f a) [first, a]) : IsEncoding m c j (first :: bytes) := by
  unfold args1 at h
  split at h <;> cases h
  exact hf _

theorem args2_isEncoding {f : Byte → Byte → Instr} (h : args2 first f bytes = .ok j)
    (hf : ∀ a b, IsEncoding m c (f a b) [first, a, b]) : IsEncoding m c j (first :: bytes) := by
  unfold args2 at h
  split at h <;> cases h
  exact hf _ _

theorem args3_isEncoding {f : Byte → Byte → Byte → Instr} (h : args3 first f bytes = .ok j)
    (hf : ∀ a b d, IsEncoding m c (f a b d) [first, a, b, d]) : IsEncoding m c j (first :: bytes) := by
  unfold args3 at h
  split at h <;> cases h
  exact hf _ _ _

theorem args4_isEncoding {f : Byte → Byte → Byte → Byte → Instr} (h : args4 first f bytes = .ok j)
    (hf : ∀ a b d e, IsEncoding m c (f a b d e) [first, a, b, d, e]) : IsEncoding m c j (first :: bytes) := by
  unfold args4 at h
  split at h <;> cases h
  exact hf _ _ _ _

end

theorem frameArgs_isEncoding {m : ChipTable} {bytes : List Byte} {j : Instr} (h : frameArgs 0x30 bytes = .ok j) :
    IsEncoding m .client j (0x30 :: bytes) := by
  unfold frameArgs at h
  split at h <;> cases h
  exact ⟨rfl, rfl, by simp [encode]⟩

/-! ### The three decoders -/

theorem eq_ofNat_of_toNat {b : Byte} {n : Nat} (h : b.toNat = n) : b = BitVec.ofNat 8 n := by
  rw [← h, BitVec.ofNat_toNat, BitVec.setWidth_eq]

/-- Each op code of the table is the first byte of its operation's encoding (30_encoding.md R142). -/
theorem decodeClient_isEncoding {m : ChipTable} {bytes : List Byte} {i : Instr} (h : decodeClient bytes = .ok i) :
    IsEncoding m .client i bytes := by
  cases bytes with
  | nil => cases h
  | cons op rest =>
    simp only [decodeClient] at h
    split at h
    case h_1 hop => cases eq_ofNat_of_toNat hop; exact args0_isEncoding h ⟨rfl, rfl, rfl⟩
    case h_2 hop => cases eq_ofNat_of_toNat hop; exact args0_isEncoding h ⟨rfl, rfl, rfl⟩
    case h_3 hop => cases eq_ofNat_of_toNat hop; exact args1_isEncoding h fun _ => ⟨rfl, rfl, rfl⟩
    case h_4 hop => cases eq_ofNat_of_toNat hop; exact args0_isEncoding h ⟨rfl, rfl, rfl⟩
    case h_5 hop => cases eq_ofNat_of_toNat hop; exact args0_isEncoding h ⟨rfl, rfl, rfl⟩
    case h_6 hop => cases eq_ofNat_of_toNat hop; exact args0_isEncoding h ⟨rfl, rfl, rfl⟩
    case h_7 hop => cases eq_ofNat_of_toNat hop; exact args0_isEncoding h ⟨rfl, rfl, rfl⟩
    case h_8 hop => cases eq_ofNat_of_toNat hop; exact args1_isEncoding h fun _ => ⟨rfl, rfl, rfl⟩
    case h_9 hop => cases eq_ofNat_of_toNat hop; exact args2_isEncoding h fun _ _ => ⟨rfl, rfl, rfl⟩
    case h_10 hop => cases eq_ofNat_of_toNat hop; exact args3_isEncoding h fun _ _ _ => ⟨rfl, rfl, rfl⟩
    case h_11 hop => cases eq_ofNat_of_toNat hop; exact args0_isEncoding h ⟨rfl, rfl, rfl⟩
    case h_12 hop => cases eq_ofNat_of_toNat hop; exact args0_isEncoding h ⟨rfl, rfl, rfl⟩
    case h_13 hop => cases eq_ofNat_of_toNat hop; exact args3_isEncoding h fun _ _ _ => ⟨rfl, rfl, rfl⟩
    case h_14 hop => cases eq_ofNat_of_toNat hop; exact args1_isEncoding h fun _ => ⟨rfl, rfl, rfl⟩
    case h_15 hop => cases eq_ofNat_of_toNat hop; exact args4_isEncoding h fun _ _ _ _ => ⟨rfl, rfl, rfl⟩
    case h_16 hop => cases eq_ofNat_of_toNat hop; exact args4_isEncoding h fun _ _ _ _ => ⟨rfl, rfl, rfl⟩
    case h_17 hop => cases eq_ofNat_of_toNat hop; exact args0_isEncoding h ⟨rfl, rfl, rfl⟩
    case h_18 hop => cases eq_ofNat_of_toNat hop; exact frameArgs_isEncoding h
    case h_19 hop => cases eq_ofNat_of_toNat hop; exact args0_isEncoding h ⟨rfl, rfl, rfl⟩
    case h_20 => cases h

/-- A SETUP packet is the encoding of the fields that its bytes hold. -/
theorem encodeSetup_fields (bm rq v0 v1 x0 x1 l0 l1 : Byte) :
    encodeSetup (bmDir bm) (bmType bm) (bmRecip bm) rq (le16 v0 v1) (le16 x0 x1) (le16 l0 l1) =
      [bm, rq, v0, v1, x0, x1, l0, l1] := by
  simp [encodeSetup]

section
variable {m : ChipTable} {bm rq : Byte} {v x l : Half} {i : Instr}

theorem descriptorRequest_isEncoding (dir : BitVec 1) (recip : BitVec 5) (t n : Byte) (x l : Half) :
    IsEncoding m .setup (descriptorRequest dir recip t n x l) (encodeSetup dir 0 recip 0x06 (le16 n t) x l) := by
  unfold descriptorRequest
  split
  · next h => subst h; exact ⟨rfl, rfl, rfl⟩
  · next h1 =>
    split
    · next h => subst h; exact ⟨rfl, rfl, rfl⟩
    · next h2 =>
      split
      · next h => subst h; exact ⟨rfl, rfl, rfl⟩
      · next h3 => exact ⟨dtypeIsOther_iff.mpr ⟨h1, h2, h3⟩, rfl, rfl⟩

theorem standardRequest_isEncoding (h : standardRequest bm rq v x l = .ok i) :
    IsEncoding m .setup i (encodeSetup (bmDir bm) 0 (bmRecip bm) rq v x l) := by
  unfold standardRequest at h
  split at h <;> cases h
  case h_5 hrq =>
    cases eq_ofNat_of_toNat hrq
    simpa using descriptorRequest_isEncoding (bmDir bm) (bmRecip bm) (highByte v) (lowByte v) x l
  all_goals next hrq => cases eq_ofNat_of_toNat hrq; exact ⟨rfl, rfl, rfl⟩

theorem classRequest_isEncoding (h : classRequest bm rq v x l = .ok i) :
    IsEncoding m .setup i (encodeSetup (bmDir bm) 1 (bmRecip bm) rq v x l) := by
  unfold classRequest at h
  split at h <;> cases h
  all_goals next hrq => cases eq_ofNat_of_toNat hrq; exact ⟨rfl, rfl, rfl⟩

end

theorem decodeSetup_isEncoding {m : ChipTable} {bytes : List Byte} {i : Instr} (h : decodeSetup bytes = .ok i) :
    IsEncoding m .setup i bytes := by
  unfold decodeSetup at h
  split at h
  · next bm rq v0 v1 x0 x1 l0 l1 =>
    rw [← encodeSetup_fields bm]
    split at h
    · next ht => rw [ht]; exact standardRequest_isEncoding h
    · split at h
      · next ht => rw [ht]; exact classRequest_isEncoding h
      · cases h
  · cases h

/-- Dummies that are all 0x00. -/
theorem eq_replicate_of_allZero : ∀ {bs : List Byte}, allZero bs = true → bs = List.replicate bs.length 0x00
  | [], _ => rfl
  | b :: bs, h => by
    simp only [allZero, Bool.and_eq_true, beq_iff_eq] at h
    rw [List.length_cons, List.replicate_succ, ← eq_replicate_of_allZero h.2, h.1]

theorem decodeRead_isEncoding {m : ChipTable} {bytes : List Byte} {i : Instr}
    (h : decodeRead m.cmdRead bytes = .ok i) : IsEncoding m .serial i (m.cmdRead :: bytes) := by
  unfold decodeRead at h
  split at h
  · split at h <;> cases h
    next hz => subst hz; exact ⟨rfl, rfl, rfl⟩
  · cases h

theorem decodeWrite_isEncoding {m : ChipTable} {bytes : List Byte} {i : Instr}
    (h : decodeWrite m.cmdWrite bytes = .ok i) : IsEncoding m .serial i (m.cmdWrite :: bytes) := by
  unfold decodeWrite at h
  split at h <;> cases h
  exact ⟨by simp [Instr.wellFormed, writeLengthOk], rfl, rfl⟩

theorem decodeReadStatus_isEncoding {m : ChipTable} {bytes : List Byte} {i : Instr}
    (h : decodeReadStatus m.cmdReadStatus bytes = .ok i) : IsEncoding m .serial i (m.cmdReadStatus :: bytes) := by
  unfold decodeReadStatus at h
  split at h
  · split at h <;> cases h
    next hz => subst hz; exact ⟨rfl, rfl, rfl⟩
  · cases h

theorem decodeLoadTx_isEncoding {m : ChipTable} (x : Fin 3) {bytes : List Byte} {i : Instr}
    (h : decodeLoadTx m.cmdLoadTx[x] x bytes = .ok i) : IsEncoding m .serial i (m.cmdLoadTx[x] :: bytes) := by
  unfold decodeLoadTx at h
  split at h <;> cases h
  next hl => exact ⟨hl, rfl, rfl⟩

/-- The dummies of a READ RX are the five of the encoder and the payload's (30_encoding.md R163). -/
theorem decodeReadRx_ok {m : ChipTable} (b : Fin 2) {bytes : List Byte} {i : Instr}
    (h : decodeReadRx m.cmdReadRx[b] b bytes = .ok i) :
    ∃ p, p ≤ 8 ∧ i = .spiReadRx b ∧ m.cmdReadRx[b] :: bytes = encode m i ++ List.replicate p 0x00 := by
  unfold decodeReadRx at h
  split at h
  · cases h
  · next hl =>
    split at h <;> cases h
    next hz =>
      refine ⟨bytes.length - 5, by omega, rfl, ?_⟩
      have hlen : bytes.length = 5 + (bytes.length - 5) := by omega
      rw [eq_replicate_of_allZero hz, hlen, List.replicate_add]
      simp [encode]

/-- A transaction is its operation's encoding, or a READ RX with more dummies than the encoder writes. -/
theorem decodeSerial_isEncoding {m : ChipTable} {bytes : List Byte} {i : Instr} (h : decodeSerial m bytes = .ok i) :
    IsEncoding m .serial i bytes ∨
      ∃ b p, p ≤ 8 ∧ i = .spiReadRx b ∧ bytes = encode m i ++ List.replicate p 0x00 := by
  cases bytes with
  | nil => cases h
  | cons cmd rest =>
    simp only [decodeSerial] at h
    split at h
    · next hc => subst hc; exact .inl (args0_isEncoding h ⟨rfl, rfl, rfl⟩)
    split at h
    · next hc => subst hc; exact .inl (decodeRead_isEncoding h)
    split at h
    · next hc => subst hc; exact .inl (decodeWrite_isEncoding h)
    split at h
    · next hc => subst hc; exact .inl (args3_isEncoding h fun _ _ _ => ⟨rfl, rfl, rfl⟩)
    split at h
    · next hc => subst hc; exact .inl (decodeReadStatus_isEncoding h)
    split at h
    · next hc => subst hc; exact .inl (decodeLoadTx_isEncoding 0 h)
    split at h
    · next hc => subst hc; exact .inl (decodeLoadTx_isEncoding 1 h)
    split at h
    · next hc => subst hc; exact .inl (decodeLoadTx_isEncoding 2 h)
    split at h
    · next hc => subst hc; exact .inr ⟨0, decodeReadRx_ok 0 h⟩
    split at h
    · next hc => subst hc; exact .inr ⟨1, decodeReadRx_ok 1 h⟩
    cases h

/-- Settles O2: each decoder accepts only what the encoder writes, but for the further dummies of a READ RX. -/
theorem encodeOfDecode : Obligations.EncodeOfDecode := by
  intro m c bytes i h
  cases c with
  | client =>
    obtain ⟨hw, hc, he⟩ := decodeClient_isEncoding (m := m) h
    exact ⟨hw, hc, .inl he⟩
  | setup =>
    obtain ⟨hw, hc, he⟩ := decodeSetup_isEncoding (m := m) h
    exact ⟨hw, hc, .inl he⟩
  | serial =>
    rcases decodeSerial_isEncoding h with ⟨hw, hc, he⟩ | ⟨b, p, hp, rfl, he⟩
    · exact ⟨hw, hc, .inl he⟩
    · exact ⟨rfl, rfl, .inr ⟨b, p, hp, rfl, he⟩⟩

/-- Settles O3: each word is looked up in its table. -/
theorem wordsOfTheTablesDecode : Obligations.WordsOfTheTablesDecode :=
  ⟨rfl, rfl, rfl, rfl, rfl, rfl, rfl, rfl, rfl, rfl⟩

/-! ### Packets that no rule takes (30_encoding.md R155, R156) -/

theorem standardRequest_unknown (bm : Byte) {rq : Byte} (v x l : Half)
    (h : rq.toNat ∉ [0x00, 0x01, 0x03, 0x05, 0x06, 0x08, 0x09, 0x0A, 0x0B, 0x0C]) :
    standardRequest bm rq v x l = .error (.unknownRequest bm rq) := by
  unfold standardRequest
  split
  case h_11 => rfl
  all_goals next hrq => rw [hrq] at h; exact absurd (by decide) h

theorem classRequest_unknown (bm : Byte) {rq : Byte} (v x l : Half) (h : rq.toNat ∉ [0x00, 0x01, 0x20, 0x21, 0x22]) :
    classRequest bm rq v x l = .error (.unknownRequest bm rq) := by
  unfold classRequest
  split
  case h_6 => rfl
  all_goals next hrq => rw [hrq] at h; exact absurd (by decide) h

theorem decodeSetup_unknown {bm rq : Byte} (v0 v1 x0 x1 l0 l1 : Byte)
    (h : 2 ≤ (bmType bm).toNat ∨
      (bmType bm = 0 ∧ rq.toNat ∉ [0x00, 0x01, 0x03, 0x05, 0x06, 0x08, 0x09, 0x0A, 0x0B, 0x0C]) ∨
      (bmType bm = 1 ∧ rq.toNat ∉ [0x00, 0x01, 0x20, 0x21, 0x22])) :
    decodeSetup [bm, rq, v0, v1, x0, x1, l0, l1] = .error (.unknownRequest bm rq) := by
  rcases h with h | ⟨ht, h⟩ | ⟨ht, h⟩
  · have h0 : bmType bm ≠ 0 := by intro e; rw [e] at h; exact absurd h (by decide)
    have h1 : bmType bm ≠ 1 := by intro e; rw [e] at h; exact absurd h (by decide)
    rw [decodeSetup, if_neg h0, if_neg h1]
  · rw [decodeSetup, if_pos ht, standardRequest_unknown bm _ _ _ h]
  · rw [decodeSetup, if_neg (by rw [ht]; decide), if_pos ht, classRequest_unknown bm _ _ _ h]

/-- A SETUP packet in a buffer of the block's is read, decoded and dispatched (40_usb_control.md R201, R202). -/
theorem handleSetup_eq {s : State} (h : (s.bd .ep0out).own = .sw) :
    handleSetup s = dispatchSetup (decodeSetup (s.mem.readList Buf.ep0out.base 8)) (leaveStall s) := by
  have hsize : 0 + 8 ≤ Buf.ep0out.size s.cfg := by rw [Nat.zero_add]; exact eight_le_ep0Size_bytes s.cfg.ep0Size
  rw [handleSetup, memReadList_eq h hsize]
  rfl

/-- Settles O5: the packet's first two bytes are in no row of its type's table, and what decodes to no request
stalls. -/
theorem unknownRequestStalls : Obligations.UnknownRequestStalls := by
  intro s hown hunknown
  have hdecode : decodeSetup (s.mem.readList Buf.ep0out.base 8) = .error _ := decodeSetup_unknown _ _ _ _ _ _ hunknown
  rw [handleSetup_eq hown, hdecode]
  rfl

end Sys2Proof.Machine
end

section
/-! PROOF. What a step does with each kind of input (30_encoding.md R140, R141, R147). -/

namespace Sys2Proof.Machine

section
variable {s : State}

theorem step_of_input {i : Input} {rest : List Input} (hb : s.bench = none) (hi : s.inputs = i :: rest) :
    step s = andThen (stepInput i (s.accept rest)) fun t => .next (sieSettle t) := by
  simp only [step, nextInput, hb, hi]

theorem step_of_bench {bytes : List Byte} (hb : s.bench = some bytes) :
    step s = andThen (stepBench bytes { s.accept s.inputs with bench := none }) fun t => .next (sieSettle t) := by
  simp only [step, nextInput, hb]

theorem step_of_idle (hb : s.bench = none) (hi : s.inputs = []) : step s = .next s := by
  simp only [step, nextInput, hb, hi]

theorem stepRequest_of_ok {bytes : List Byte} {i : Instr} (h : decodeClient bytes = .ok i) :
    stepRequest bytes s = exec i s := by
  simp only [stepRequest, h]

theorem stepBench_of_ok {bytes : List Byte} {i : Instr} (h : decodeSerial s.cfg.chip bytes = .ok i) :
    stepBench bytes s = exec i s := by
  simp only [stepBench, h]

end

/-- Settles O6: one case for what stands on the bench, one for each kind of input, and one for none. -/
theorem stepRunsTheDecodedOperation : Obligations.StepRunsTheDecodedOperation := by
  refine fun s => ⟨fun hb => ⟨?request, ?token, ?outside, ?tick, ?idle⟩, ?bench⟩
  case request =>
    intro bytes rest i hi hd
    rw [step_of_input hb hi]
    exact congrArg (andThen · _) (stepRequest_of_ok hd)
  case token => exact fun t rest hi => step_of_input hb hi
  case outside => exact fun o rest hi => step_of_input hb hi
  case tick => exact fun rest hi => step_of_input hb hi
  case idle => exact step_of_idle hb
  case bench =>
    intro bytes i hb hd
    rw [step_of_bench hb]
    exact congrArg (andThen · _) (stepBench_of_ok hd)

end Sys2Proof.Machine
end

section
/-! PROOF. The induction over the work of an operation on the serial bus, once for every relation that the parts of that
work keep; and with it that every operation performs whole transactions of the block's command set (30_encoding.md R160
to R162). -/

namespace Sys2Proof.Machine

/-! ### What the parts of the work on the bus keep, every operation keeps -/

/-- A relation that holds over each part of the work on the serial bus, and over such parts one after another. -/
structure BusClosed (R : State → State → Prop) : Prop where
  trans : ∀ {s t u}, R s t → R t u → R s u
  /-- What the driver remembers and what the request answers is not on the bus. -/
  updates : ∀ (s : State) (can : Can) (r : Option Response), R s { s with can := can, response := r }
  letOutside : ∀ s, R s (letOutside s)
  txnReset : ∀ s, R s (txnReset s)
  txnRead : ∀ a s, R s (txnRead a s).2
  txnWrite : ∀ a ds s, R s (txnWrite a ds s)
  txnBitModify : ∀ a k d s, R s (txnBitModify a k d s)
  txnReadStatus : ∀ s, R s (txnReadStatus s).2
  txnLoadTx : ∀ x ds s, R s (txnLoadTx x ds s)
  txnReadRx : ∀ b s, R s (txnReadRx b s).2

section
variable {R : State → State → Prop} (h : BusClosed R) {s t : State}
include h

theorem BusClosed.refl (s : State) : R s s := h.updates s s.can s.response

theorem BusClosed.thenRespond (hst : R s t) (st : Status) (r : List Byte) : R s (respond st r t) :=
  h.trans hst (h.updates t _ _)

theorem BusClosed.timingWrites (c1 c2 c3 : Byte) (s : State) : R s (timingWrites c1 c2 c3 s) :=
  h.trans (h.txnWrite _ _ _) (h.trans (h.txnWrite _ _ _) (h.txnWrite _ _ _))

theorem BusClosed.maskWrites (m0 m1 m2 m3 : Byte) (s : State) : R s (maskWrites m0 m1 m2 m3 s) :=
  h.trans (h.txnWrite _ _ _) (h.txnWrite _ _ _)

theorem BusClosed.codeWrites (c0 c1 c2 c3 : Byte) (s : State) : R s (codeWrites c0 c1 c2 c3 s) :=
  h.trans (h.txnWrite _ _ _) <| h.trans (h.txnWrite _ _ _) <| h.trans (h.txnWrite _ _ _) <|
    h.trans (h.txnWrite _ _ _) <| h.trans (h.txnWrite _ _ _) (h.txnWrite _ _ _)

theorem BusClosed.initWrites (s : State) : R s (initWrites s) :=
  h.trans (h.txnReset s) <| h.trans (h.maskWrites _ _ _ _ _) <| h.trans (h.codeWrites _ _ _ _ _) <|
    h.trans (h.txnWrite _ _ _) (h.txnWrite _ _ _)

theorem BusClosed.testTxn (t : TestTxn) (s : State) : R s (testTxn t s) := by
  cases t with
  | reset => exact h.txnReset s
  | read a => exact h.txnRead a s
  | write a ds => exact h.txnWrite a ds s
  | bitModify a k d => exact h.txnBitModify a k d s
  | readStatus => exact h.txnReadStatus s
  | loadTx x ds => exact h.txnLoadTx x ds s
  | readRx b => exact h.txnReadRx b s

theorem BusClosed.testTxns : ∀ (ts : List TestTxn) (s : State), R s (testTxns ts s)
  | [], s => h.refl s
  | t :: ts, s => h.trans (h.testTxn t s) (BusClosed.testTxns ts _)

/-- A stage: its transactions, and the three pins sampled. -/
theorem BusClosed.testStage (g : SelfTestStage) (s : State) : R s (testStage g s).2 :=
  h.trans (h.testTxns g.txns s) <| h.trans (h.letOutside _) <| h.trans (h.letOutside _) (h.letOutside _)

theorem BusClosed.testStages : ∀ (gs : List SelfTestStage) (s : State), R s (testStages gs s).2
  | [], s => h.refl s
  | g :: gs, s => h.trans (h.testStage g s) (BusClosed.testStages gs _)

theorem BusClosed.promoteTxns : ∀ (ps : List (Fin 3 × Fin 4)) (s : State), R s (promoteTxns ps s)
  | [], s => h.refl s
  | (_, _) :: ps, s => h.trans (h.txnBitModify _ _ _ s) (BusClosed.promoteTxns ps _)

theorem BusClosed.sendTxns (ch : TxChoice) (load : List Byte) (s : State) : R s (sendTxns ch load s) :=
  h.trans (h.promoteTxns _ s) <| h.trans (h.txnLoadTx _ _ _) (h.txnWrite _ _ _)

theorem BusClosed.execCanSetPreset {k : Byte} (ht : execCanSetPreset k s = .next t) : R s t := by
  unfold Machine.execCanSetPreset at ht
  split at ht
  · cases ht; exact h.thenRespond (h.timingWrites _ _ _ s) _ _
  · cases ht; exact h.updates s _ _

theorem BusClosed.execCanInit (ht : execCanInit s = .next t) : R s t := by
  cases ht
  exact h.trans (h.initWrites s) <| h.trans (h.testStages _ _) <| h.trans (h.testTxns _ _) (h.updates _ _ _)

theorem BusClosed.execCanSend {flags : Byte} {id : BitVec 32} {dlc : Byte} {data : Vector Byte 8}
    (ht : execCanSend flags id dlc data s = .next t) : R s t := by
  unfold Machine.execCanSend at ht
  split at ht
  · cases ht; exact h.updates s _ _
  · simp only at ht
    split at ht
    · cases ht; exact h.thenRespond (h.txnReadStatus s) _ _
    · cases ht
      exact h.trans (h.txnReadStatus s) <| h.trans (h.sendTxns _ _ _) (h.updates _ _ _)

theorem BusClosed.execCanReceive (ht : execCanReceive s = .next t) : R s t := by
  unfold Machine.execCanReceive at ht
  simp only at ht
  have hpins : R s (samplePin .rx1 (samplePin .rx0 s).2).2 := h.trans (h.letOutside s) (h.letOutside _)
  split at ht
  · cases ht; exact h.thenRespond hpins _ _
  · cases ht
    exact h.trans hpins <| h.trans (h.updates _ _ _) (h.thenRespond (h.txnReadRx _ _) _ _)

/-- An operation that does not use the USB function keeps what every part of the work on the bus keeps. -/
theorem BusClosed.exec {i : Instr} (hi : usesUsb i = false) (ht : exec i s = .next t) : R s t := by
  cases i with
  | canReset => cases ht; exact h.thenRespond (h.txnReset s) _ _
  | canReadReg a => cases ht; exact h.thenRespond (h.txnRead a s) _ _
  | canWriteReg a d => cases ht; exact h.thenRespond (h.txnWrite a [d] s) _ _
  | canBitModify a m d => cases ht; exact h.thenRespond (h.txnBitModify a m d s) _ _
  | canReadStatus => cases ht; exact h.thenRespond (h.txnReadStatus s) _ _
  | canInit => exact h.execCanInit ht
  | canSetTiming c1 c2 c3 => cases ht; exact h.thenRespond (h.timingWrites c1 c2 c3 s) _ _
  | canSetPreset k => exact h.execCanSetPreset ht
  | canSetMask m0 m1 m2 m3 => cases ht; exact h.thenRespond (h.maskWrites m0 m1 m2 m3 s) _ _
  | canSetCode c0 c1 c2 c3 => cases ht; exact h.thenRespond (h.codeWrites c0 c1 c2 c3 s) _ _
  | canReadErrflags => cases ht; exact h.thenRespond (h.txnRead _ s) _ _
  | canSend flags id dlc data => exact h.execCanSend ht
  | canReceive => exact h.execCanReceive ht
  | spiReset => cases ht; exact h.txnReset s
  | spiRead a => cases ht; exact h.txnRead a s
  | spiWrite a ds => cases ht; exact h.txnWrite a ds s
  | spiBitModify a m d => cases ht; exact h.txnBitModify a m d s
  | spiReadStatus => cases ht; exact h.txnReadStatus s
  | spiLoadTx x ds => cases ht; exact h.txnLoadTx x ds s
  | spiReadRx b => cases ht; exact h.txnReadRx b s
  | _ => cases hi

end

/-! ### Whole transactions -/

theorem length_freeBytes : ∀ (first n : Nat), (freeBytes first n).length = n
  | _, 0 => rfl
  | first, n + 1 => by rw [freeBytes, List.length_cons, length_freeBytes (first + 1) n]

theorem Chip.length_readList (c : Chip) : ∀ (a n : Nat), (c.readList a n).length = n
  | _, 0 => rfl
  | a, n + 1 => by rw [Chip.readList, List.length_cons, Chip.length_readList c (a + 1) n]

/-- A transaction receives one byte for each byte sent, and begins with a command byte of the chip. -/
def WholeTxn (m : ChipTable) (x : SerialTxn) : Prop :=
  x.miso.length = x.mosi.length ∧ ∃ cmd ∈ m.commands, x.mosi.head? = some cmd

/-- `t` comes from `s` by whole transactions of the command set, and perhaps work that is not on the bus. -/
structure WholeTxns (s t : State) : Prop where
  cfg : t.cfg = s.cfg
  txns : ∃ new, t.txns = s.txns ++ new ∧ ∀ x ∈ new, WholeTxn s.cfg.chip x

/-- Work that performs no transaction. -/
theorem WholeTxns.none {s t : State} (hc : t.cfg = s.cfg) (ht : t.txns = s.txns) : WholeTxns s t :=
  ⟨hc, [], by rw [ht, List.append_nil], nofun⟩

theorem WholeTxns.trans {s t u : State} (h : WholeTxns s t) (k : WholeTxns t u) : WholeTxns s u := by
  obtain ⟨hc, new, ht, hnew⟩ := h
  obtain ⟨kc, new', kt, knew⟩ := k
  refine ⟨kc.trans hc, new ++ new', by rw [kt, ht, List.append_assoc], fun x hx => ?_⟩
  rcases List.mem_append.mp hx with hx | hx
  · exact hnew x hx
  · exact hc ▸ knew x hx

/-- A transaction with a command byte of the chip and a reply no longer than what is sent after that byte. -/
theorem WholeTxns.transaction {s : State} (n : Nat) {cmd : Byte} {rest reply : List Byte} (c : Chip)
    (hcmd : cmd ∈ (letOutside s).cfg.chip.commands) (hlen : reply.length ≤ rest.length) :
    WholeTxns s (((letOutside s).draw n).exchange (cmd :: rest) reply c) := by
  refine ⟨by simp, _, by rw [State.exchange_txns, State.draw_txns, letOutside_txns], fun x hx => ?_⟩
  cases List.mem_singleton.mp hx
  rw [letOutside_cfg] at hcmd
  exact ⟨by simp only [List.length_append, length_freeBytes, List.length_cons]; omega, cmd, hcmd, rfl⟩

/-- Each kind of transaction is whole: READ RX receives a byte for each of its dummies. -/
theorem WholeTxns.busClosed : BusClosed WholeTxns where
  trans := .trans
  updates _ _ _ := .none rfl rfl
  letOutside s := .none (letOutside_cfg s) (letOutside_txns s)
  txnReset _ := .transaction 128 _ (Laws.mem_commands _).1 (Nat.le_refl _)
  txnRead _ _ := .transaction 1 _ (Laws.mem_commands _).2.1 (Nat.le_succ _)
  txnWrite _ _ _ := .transaction 0 _ (Laws.mem_commands _).2.2.1 (Nat.zero_le _)
  txnBitModify _ _ _ _ := .transaction 0 _ (Laws.mem_commands _).2.2.2.1 (Nat.zero_le _)
  txnReadStatus _ := .transaction 0 _ (Laws.mem_commands _).2.2.2.2.1 (Nat.le_refl _)
  txnLoadTx x _ _ := .transaction 0 _ ((Laws.mem_commands _).2.2.2.2.2.1 x) (Nat.zero_le _)
  txnReadRx b _ := .transaction 0 _ ((Laws.mem_commands _).2.2.2.2.2.2 b)
    (by rw [Chip.length_readList, List.length_replicate])

/-- Settles O39: an operation of the USB function performs no transaction, and each other works by whole ones. -/
theorem transactionsAreOfTheCommandSet : Obligations.TransactionsAreOfTheCommandSet := by
  intro i s t h
  by_cases hi : usesUsb i = true
  · have same := exec_sameCan hi h
    exact (WholeTxns.none same.cfg same.txns).txns
  · exact (WholeTxns.busClosed.exec (by simpa using hi) h).txns

end Sys2Proof.Machine
end

section
/-! PROOF. What the serial commands leave of the reference chip's registers (42_serial_bus.md R352 to R358). -/

namespace Sys2Proof.Machine

/-! ### Writes (42_serial_bus.md R354, 43_can_config.md R401) -/

theorem configOnly_lt {a : Nat} (h : configOnly a = true) : a < 128 := by
  simp only [configOnly, Bool.or_eq_true, Bool.and_eq_true, decide_eq_true_eq] at h
  omega

theorem Chip.ignores_mcp2515 (c : Chip) {a : Nat} (ha : a < 128) :
    c.ignores mcp2515 a = (configOnly a && !c.inConfigMode mcp2515) := by
  rw [Chip.ignores, mcp2515_info ha]
  rfl

/-- CANSTAT is read-only: a write changes no mode. -/
@[simp] theorem Chip.inConfigMode_writeAt (c : Chip) (a : Nat) (v : Byte) :
    (c.writeAt mcp2515 a v).inConfigMode mcp2515 = c.inConfigMode mcp2515 := by
  have hstat : (c.writeAt mcp2515 a v).reg mcp2515.canstat = c.reg mcp2515.canstat := by
    rw [Chip.reg_eq, Chip.cell_writeAt, mcp2515_info (by decide)]
    split
    · exact mergeBits_zero _ _
    · rfl
  rw [Chip.inConfigMode, Chip.mode, hstat]
  rfl

theorem Chip.ignores_writeAt (c : Chip) (a b : Nat) (v : Byte) :
    (c.writeAt mcp2515 a v).ignores mcp2515 b = c.ignores mcp2515 b := by
  rw [Chip.ignores, Chip.inConfigMode_writeAt]
  rfl

/-- Each register in the range of a write takes its byte's writable bits, unless the chip ignores the write of it. -/
theorem Chip.cell_writeList : ∀ (vs : List Byte) (c : Chip) (a i : Nat) (hi : i < vs.length),
    (c.writeList mcp2515 a vs).cell (a + i) =
      if a + i < 128 ∧ c.ignores mcp2515 (a + i) = false then
        mergeBits (mcp2515.info (a + i)).writable (c.cell (a + i)) vs[i]
      else c.cell (a + i)
  | v :: vs, c, a, 0, _ => by
    rw [Chip.writeList, Chip.cell_writeList_other _ _ _ _ _ (by omega), Chip.cell_writeAt]
    simp
  | v :: vs, c, a, i + 1, hi => by
    have hbyte : (c.writeAt mcp2515 a v).cell (a + (i + 1)) = c.cell (a + (i + 1)) := by
      rw [Chip.cell_writeAt, if_neg fun e => by omega]
    have ih := Chip.cell_writeList vs (c.writeAt mcp2515 a v) (a + 1) i (Nat.lt_of_succ_lt_succ hi)
    rw [show a + 1 + i = a + (i + 1) by omega, hbyte, Chip.ignores_writeAt] at ih
    rw [Chip.writeList, ih, List.getElem_cons_succ]

theorem Chip.writeList_registersWritten (c : Chip) (a : Nat) (bytes : List Byte) :
    RegistersWritten c (c.writeList mcp2515 a bytes) a bytes where
  taken i hi ha hmode j _ := by
    have hnot : c.ignores mcp2515 (a + i) = false := by
      rw [Chip.ignores_mcp2515 c ha]
      rcases hmode with h | h <;> simp [h]
    rw [Chip.cell_writeList bytes c a i hi, if_pos ⟨ha, hnot⟩, mcp2515_info ha, getLsbD_mergeBits]
    rfl
  ignored i hi hconf hmode := by
    have hyes : c.ignores mcp2515 (a + i) = true := by
      rw [Chip.ignores_mcp2515 c (configOnly_lt hconf), hconf, hmode]
      rfl
    rw [Chip.cell_writeList bytes c a i hi, if_neg (by simp [hyes])]
  others b hb := Chip.cell_writeList_other bytes c mcp2515 a b hb

theorem supportsBitModify_lt {a : Nat} (h : supportsBitModify a = true) : a < 128 := by
  unfold supportsBitModify at h
  split at h
  case h_15 => cases h
  all_goals decide

theorem mcp2515_bitModify (a : Nat) : (mcp2515.info a).bitModify = supportsBitModify a := by
  by_cases ha : a < 128
  · rw [mcp2515_info ha]
    rfl
  · have hout : mcp2515.info a = default := by
      unfold ChipTable.info Vector.getD
      rw [Array.getD_eq_getD_getElem?, Vector.getElem?_toArray, Vector.getElem?_eq_none (by omega)]
      rfl
    have hno : supportsBitModify a = false := by
      by_contra h
      exact ha (supportsBitModify_lt (by simpa using h))
    rw [hout, hno]
    rfl

/-- BIT MODIFY is a write of one byte, of the masked bits where the register supports it (42_serial_bus.md R355). -/
theorem Chip.bitModify_eq_writeList (c : Chip) (a k d : Byte) :
    c.bitModify mcp2515 a.toNat k d = c.writeList mcp2515 a.toNat
      [if supportsBitModify a.toNat then (c.reg a &&& ~~~k) ||| (d &&& k) else d] := by
  rw [Chip.bitModify, mcp2515_bitModify, Chip.writeList, Chip.writeList]
  split <;> rfl

/-! ### RESET (42_serial_bus.md R352) -/

section
variable (c : Chip) (n : Nat)

theorem chipResetValue_lt {a : Nat} {v : Byte} (h : chipResetValue a = some v) : a < 128 := by
  unfold chipResetValue at h
  split at h
  case h_18 => cases h
  all_goals decide

theorem Chip.cell_reset_mcp2515 {a : Nat} {v : Byte} (h : chipResetValue a = some v) :
    (c.reset mcp2515 n).cell a = v := by
  have ha := chipResetValue_lt h
  rw [Chip.cell_reset c mcp2515 n a ha, mcp2515_info ha]
  exact congrArg (Option.getD · (Config.freeByte (n + a))) h

theorem Chip.inConfigMode_reset : (c.reset mcp2515 n).inConfigMode mcp2515 = true := by
  have hstat : (c.reset mcp2515 n).reg mcp2515.canstat = 0x80 := Chip.cell_reset_mcp2515 c n rfl
  rw [Chip.inConfigMode, Chip.mode, hstat]
  rfl

theorem Chip.txreq_reset (x : Fin 3) : (c.reset mcp2515 n).txreq mcp2515 x = false := by
  have hctrl : (c.reset mcp2515 n).reg (mcp2515.ctrl x) = 0x00 :=
    Chip.cell_reset_mcp2515 c n (by revert x; decide)
  rw [Chip.txreq, hctrl]
  rfl

theorem Chip.rxFull_reset (b : Fin 2) : (c.reset mcp2515 n).rxFull mcp2515 b = false := by
  have hintf : (c.reset mcp2515 n).reg mcp2515.canintf = 0x00 := Chip.cell_reset_mcp2515 c n rfl
  rw [Chip.rxFull, hintf]
  simp

end

/-! ### READ RX (42_serial_bus.md R358) -/

theorem getLsbD_bitByte {i : Nat} (hi : i < 8) (j : Nat) : (bitByte i).getLsbD j = decide (i = j) := by
  rw [show bitByte i = BitVec.twoPow 8 i from rfl, BitVec.getLsbD_twoPow, decide_eq_true hi, Bool.true_and]

section
variable (c : Chip) (b : Fin 2)

theorem mcp2515_rxif_get : (mcp2515.rxif[b]).val = b.val := by revert b; decide

/-- The flag of the buffer is cleared, and no other. -/
theorem Chip.getLsbD_release (j : Nat) :
    ((c.release mcp2515 b).reg 0x2C).getLsbD j = ((c.reg 0x2C).getLsbD j && !decide (b.val = j)) := by
  have hreg : (c.release mcp2515 b).reg 0x2C = c.reg 0x2C &&& ~~~bitByte b.val := by
    rw [← mcp2515_rxif_get b]
    exact Chip.reg_put_same c _ _ (by decide)
  rw [hreg, BitVec.getLsbD_and, BitVec.getLsbD_not, getLsbD_bitByte (by omega)]
  by_cases hj : j < 8
  · simp [hj]
  · simp [BitVec.getLsbD_of_ge _ _ (by omega : 8 ≤ j)]

theorem Chip.rxFull_release : (c.release mcp2515 b).rxFull mcp2515 b = false := by
  have hbit := Chip.getLsbD_release c b b.val
  rw [decide_eq_true rfl, Bool.not_true, Bool.and_false, ← mcp2515_rxif_get b] at hbit
  exact hbit

theorem Chip.reg_release_other {a : Byte} (ha : a ≠ 0x2C) : (c.release mcp2515 b).reg a = c.reg a :=
  Chip.reg_put_other c _ (Ne.symm ha)

end

/-! ### The serial commands -/

/-- Settles O41: each serial command is one transaction, which leaves of the chip what the lemma of its command says. -/
theorem serialCommandsComplete : Obligations.SerialCommandsComplete := by
  intro s hm c
  refine ⟨?reset, ?read, ?write, ?modify, ?status, ?load, ?receive⟩
  case reset =>
    refine ⟨txnReset s, rfl, by simp, by simp, by simp [State.sentOnBus, hm], ?_⟩
    rw [txnReset_chip, hm]
    exact ⟨Chip.inConfigMode_reset c _, Chip.txreq_reset c _, Chip.rxFull_reset c _, Chip.reset_onBus c _ _,
      fun a v => Chip.cell_reset_mcp2515 c _⟩
  case read => exact fun a => ⟨(txnRead a s).2, rfl, by simp, by simp, rfl, by simp [State.sentOnBus, hm]⟩
  case write =>
    refine fun a ds => ⟨txnWrite a ds s, rfl, by simp, by simp, by simp [State.sentOnBus, hm], ?_⟩
    rw [txnWrite_chip, hm]
    exact Chip.writeList_registersWritten c _ ds
  case modify =>
    refine fun a k d => ⟨txnBitModify a k d s, rfl, by simp, by simp, by simp [State.sentOnBus, hm], ?_⟩
    rw [txnBitModify_chip, hm, Chip.bitModify_eq_writeList]
    exact Chip.writeList_registersWritten c _ _
  case status => exact ⟨(txnReadStatus s).2, rfl, by simp, by simp, rfl, by simp [State.sentOnBus, hm]⟩
  case load =>
    refine fun x ds => ⟨txnLoadTx x ds s, rfl, by simp, by simp, ?_, ?_⟩
    · rw [State.sentOnBus, txnLoadTx_mosi, hm, mcp2515_cmdLoadTx_get]
      rfl
    · rw [txnLoadTx_chip, hm, mcp2515_txSidh]
      exact Chip.writeList_registersWritten c _ ds
  case receive =>
    refine fun b => ⟨(txnReadRx b s).2, rfl, by simp, by simp, ?_, ?_⟩
    · rw [State.sentOnBus, txnReadRx_mosi, hm, mcp2515_cmdReadRx_get]
      rfl
    · rw [txnReadRx_chip, hm]
      refine ⟨Chip.rxFull_release c b, fun j hj => ?_, fun a ha => Chip.reg_release_other c b ha, rfl, rfl⟩
      rw [Chip.getLsbD_release, decide_eq_false (Ne.symm hj), Bool.not_false, Bool.and_true]

end Sys2Proof.Machine
end

section
/-! PROOF. A frame that CAN_SEND accepts stands in the slot as the chip will send it (44_can_tx.md R451 to R457). -/

namespace Sys2Proof.Machine

/-! ### The slot that is chosen (44_can_tx.md R451 to R453) -/

theorem getLsbD_flagAt (i : Fin 8) (b : Bool) (j : Nat) : (flagAt i b).getLsbD j = (b && decide (i.val = j)) := by
  cases b
  · simp [flagAt]
  · rw [flagAt, if_pos rfl, getLsbD_bitByte i.isLt, Bool.true_and]

/-- READ STATUS names the pending slots busy (42_serial_bus.md R351). -/
theorem slotBusy_status (c : Chip) (x : Fin 3) : slotBusy mcp2515 (c.status mcp2515) x = c.txreq mcp2515 x := by
  match x with
  | 0 | 1 | 2 =>
    simp only [slotBusy, Chip.status, statusByte, BitVec.getLsbD_or, getLsbD_flagAt]
    simp

theorem mem_busySlots {m : ChipTable} {st : Byte} {x : Fin 3} : x ∈ busySlots m st ↔ slotBusy m st x = true := by
  rw [busySlots, List.mem_filter]
  exact and_iff_right (by revert x; decide)

theorem nodup_busySlots (m : ChipTable) (st : Byte) : (busySlots m st).Nodup := List.Nodup.filter _ (by decide)

theorem chooseOne_slot (a : Fin 3) (sp : Vector (Fin 4) 3) : (chooseOne a sp).slot = pref1 a := by
  unfold chooseOne
  split
  · rfl
  · split <;> rfl

theorem chooseTwo_slot (a b : Fin 3) : (chooseTwo a b).slot = otherSlot a b := by
  unfold chooseTwo
  split <;> rfl

theorem otherSlot_notMem : ∀ a b : Fin 3, a ≠ b → otherSlot a b ∉ [a, b] ∧ otherSlot b a ∉ [a, b] := by decide

/-- The slot that is chosen is none of the busy ones. -/
theorem chooseSlot_slot {busy : List (Fin 3)} {sp : Vector (Fin 4) 3} {ch : TxChoice} (hb : busy.Nodup)
    (h : chooseSlot busy sp = some ch) : ch.slot ∉ busy := by
  unfold chooseSlot at h
  split at h
  case h_1 => exact List.not_mem_nil
  case h_2 a =>
    cases h
    rw [chooseOne_slot]
    revert a
    decide
  case h_3 a b =>
    cases h
    obtain ⟨hab, hba⟩ := otherSlot_notMem a b (by simpa using hb)
    split
    · rw [chooseTwo_slot]; exact hab
    · rw [chooseTwo_slot]; exact hba
  case h_4 => cases h

/-! ### The bytes of the frame (44_can_tx.md R455, R457) -/

theorem sidl_extended (sid : BitVec 3) (eid : BitVec 2) :
    (sid.zeroExtend 8 <<< 5) ||| 0x08 ||| eid.zeroExtend 8 = sid ++ (0b010 : BitVec 3) ++ eid := by
  revert sid eid; decide

theorem sidl_standard (sid : BitVec 3) : (sid.zeroExtend 8 : Byte) <<< 5 = sid ++ (0b00000 : BitVec 5) := by
  revert sid; decide

/-- The fields of an extended identifier are those of the operand. -/
theorem extractLsb'_frameId_extended (id : BitVec 32) {start len : Nat} (h : start + len ≤ 29) :
    (frameId true id).extractLsb' start len = id.extractLsb' start len := by
  ext i hi
  simp [frameId, show start + i < 29 by omega]

/-- The fields of a standard identifier are those of the operand. -/
theorem extractLsb'_frameId_standard (id : BitVec 32) {start len : Nat} (h : start + len ≤ 11) :
    (frameId false id).extractLsb' start len = id.extractLsb' start len := by
  ext i hi
  simp [frameId, show start + i < 11 by omega, show start + i < 29 by omega]

theorem idImage_frameId (ext : Bool) (id : BitVec 32) :
    idImage ext (frameId ext id) =
      if ext then
        [id.extractLsb' 21 8, id.extractLsb' 18 3 ++ (0b010 : BitVec 3) ++ id.extractLsb' 16 2, id.extractLsb' 8 8,
          id.extractLsb' 0 8]
      else [id.extractLsb' 3 8, id.extractLsb' 0 3 ++ (0b00000 : BitVec 5), 0x00, 0x00] := by
  cases ext
  · rw [idImage, if_neg (by simp), if_neg (by simp), sidl_standard, extractLsb'_frameId_standard id (by decide),
      extractLsb'_frameId_standard id (by decide)]
  · rw [idImage, if_pos rfl, if_pos rfl, sidl_extended, extractLsb'_frameId_extended id (by decide),
      extractLsb'_frameId_extended id (by decide), extractLsb'_frameId_extended id (by decide),
      extractLsb'_frameId_extended id (by decide), extractLsb'_frameId_extended id (by decide)]

/-- What the block loads is the operand in its own bits. -/
theorem loadBytes_eq_operandBytes (flags : Byte) (id : BitVec 32) (dlc : Byte) (data : Vector Byte 8) :
    loadBytes (frameExt flags) (frameRtr flags) (frameId (frameExt flags) id) dlc data =
      operandBytes flags id dlc data := by
  rw [loadBytes, idImage_frameId]
  rfl

theorem length_idImage (ext : Bool) (id : BitVec 29) : (idImage ext id).length = 4 := by cases ext <;> rfl

theorem length_payloadBytes (rtr : Bool) (dlc : Byte) (data : Vector Byte 8) :
    (payloadBytes rtr dlc data).length = payloadLength rtr dlc.toNat := by
  have h8 : payloadLength rtr dlc.toNat ≤ 8 := by unfold payloadLength; split <;> omega
  rw [payloadBytes, List.length_take, Vector.length_toList, Nat.min_eq_left h8]

section
variable (ext rtr : Bool) (id : BitVec 29) (dlc : Byte) (data : Vector Byte 8)

theorem length_loadBytes : (loadBytes ext rtr id dlc data).length = 5 + payloadLength rtr dlc.toNat := by
  simp only [loadBytes, List.length_append, length_idImage, length_payloadBytes, List.length_singleton]

theorem length_loadBytes_le : (loadBytes ext rtr id dlc data).length ≤ 13 := by
  rw [length_loadBytes]
  unfold payloadLength
  split <;> omega

/-- The fifth byte of the load is the DLC byte. -/
theorem getElem_loadBytes_dlc (h : 4 < (loadBytes ext rtr id dlc data).length) :
    (loadBytes ext rtr id dlc data)[4] = dlcByte rtr dlc := by
  cases ext <;> rfl

end

/-- The DLC byte holds RTR and the dlc of a frame that is accepted (44_can_tx.md R450, R455). -/
theorem dlcByte_fields (rtr : Bool) {dlc : Byte} (h : dlc.toNat ≤ 15) :
    (dlcByte rtr dlc).getLsbD 6 = rtr ∧ ((dlcByte rtr dlc).extractLsb' 0 4).toNat = dlc.toNat := by
  revert rtr dlc; decide

/-! ### The slot after the load and the request -/

theorem Chip.readList_eq (c : Chip) : ∀ {l : List Byte} {a : Nat},
    (∀ (i : Nat) (hi : i < l.length), c.cell (a + i) = l[i]) → c.readList a l.length = l
  | [], _, _ => rfl
  | v :: vs, a, h => by
    have htail : c.readList (a + 1) vs.length = vs := Chip.readList_eq c fun i hi => by
      rw [Nat.add_assoc, Nat.add_comm 1 i]
      exact h (i + 1) (Nat.succ_lt_succ hi)
    rw [List.length_cons, Chip.readList, htail]
    exact congrArg (· :: vs) (h 0 (Nat.succ_pos _))

/-- A slot that holds the load of an accepted frame holds the frame's bytes. -/
theorem Chip.slotBytes_of_load (c : Chip) (m : ChipTable) (x : Fin 3) {ext rtr : Bool} {id : BitVec 29} {dlc : Byte}
    {data : Vector Byte 8} (hdlc : dlc.toNat ≤ 15)
    (h : ∀ (i : Nat) (hi : i < (loadBytes ext rtr id dlc data).length),
      c.cell (m.txSidh x + i) = (loadBytes ext rtr id dlc data)[i]) :
    c.slotBytes m x = loadBytes ext rtr id dlc data := by
  have h4 : c.cell (m.txSidh x + 4) = dlcByte rtr dlc :=
    (h 4 (by rw [length_loadBytes]; omega)).trans (getElem_loadBytes_dlc _ _ _ _ _ _)
  obtain ⟨hrtr, hlen⟩ := dlcByte_fields rtr hdlc
  rw [Chip.slotBytes, h4, hrtr, hlen, ← length_loadBytes ext rtr id dlc data]
  exact Chip.readList_eq c h

/-- The registers of a transmit slot take a written byte whole, in any mode. -/
theorem slot_registers : ∀ (x : Fin 3), ∀ i < 13,
    mcp2515.txSidh x + i < 128 ∧ configOnly (mcp2515.txSidh x + i) = false ∧
      writableBits (mcp2515.txSidh x + i) = 0xFF := by
  simp only [mcp2515_txSidh]
  decide

/-- Loading a slot leaves the bytes in it. -/
theorem Chip.cell_load (c : Chip) (x : Fin 3) {load : List Byte} (hl : load.length ≤ 13) (i : Nat)
    (hi : i < load.length) :
    (c.writeList mcp2515 (mcp2515.txSidh x) load).cell (mcp2515.txSidh x + i) = load[i] := by
  obtain ⟨ha, hconf, hbits⟩ := slot_registers x i (by omega)
  have hnot : c.ignores mcp2515 (mcp2515.txSidh x + i) = false := by
    rw [Chip.ignores_mcp2515 c ha, hconf, Bool.false_and]
  rw [Chip.cell_writeList load c _ i hi, if_pos ⟨ha, hnot⟩, mcp2515_info ha]
  exact (congrArg (mergeBits · _ _) hbits).trans (mergeBits_full _ _)

/-- The request leaves the slot pending (44_can_tx.md R456). -/
theorem Chip.txreq_request (c : Chip) (x : Fin 3) (p : Fin 4) :
    (c.writeList mcp2515 (mcp2515.ctrl x).toNat [requestByte mcp2515 p]).txreq mcp2515 x = true := by
  have hctrl : ∀ x : Fin 3, (mcp2515.ctrl x).toNat < 128 ∧ configOnly (mcp2515.ctrl x).toNat = false ∧
      (writableBits (mcp2515.ctrl x).toNat).getLsbD 3 = true := by decide
  have hbit : ∀ p : Fin 4, (requestByte mcp2515 p).getLsbD 3 = true := by decide
  obtain ⟨ha, hconf, hwritable⟩ := hctrl x
  have htaken := (Chip.writeList_registersWritten c (mcp2515.ctrl x).toNat [requestByte mcp2515 p]).taken 0
    Nat.one_pos ha (.inl hconf) 3 (by decide)
  exact htaken.trans ((if_pos hwritable).trans (hbit p))

/-- The request leaves the slot's bytes alone. -/
theorem Chip.cell_request (c : Chip) (x : Fin 3) (p : Fin 4) (i : Nat) :
    (c.writeList mcp2515 (mcp2515.ctrl x).toNat [requestByte mcp2515 p]).cell (mcp2515.txSidh x + i) =
      c.cell (mcp2515.txSidh x + i) :=
  Chip.cell_writeList_other _ _ _ _ _ (.inr (Nat.le_add_right (mcp2515.txSidh x) i))

/-! ### CAN_SEND -/

/-- Where nothing is scheduled, nothing is scheduled after work on the bus. -/
def StaysQuiet (s t : State) : Prop := s.during = [] → t.during = []

theorem StaysQuiet.letOutside (s : State) : StaysQuiet s (letOutside s) := fun h => by rw [letOutside_of_nil h, h]

theorem StaysQuiet.busClosed : BusClosed StaysQuiet where
  trans h k hs := k (h hs)
  updates _ _ _ h := h
  letOutside := .letOutside
  txnReset := .letOutside
  txnRead _ := .letOutside
  txnWrite _ _ := .letOutside
  txnBitModify _ _ _ := .letOutside
  txnReadStatus := .letOutside
  txnLoadTx _ _ := .letOutside
  txnReadRx _ := .letOutside

/-- With nothing scheduled the chip is left by the load and the request, after the promotions. -/
theorem sendTxns_chip {s : State} (hd : s.during = []) (ch : TxChoice) (load : List Byte) :
    (sendTxns ch load s).chip =
      ((promoteTxns ch.promos s).chip.writeList s.cfg.chip (s.cfg.chip.txSidh ch.slot) load).writeList s.cfg.chip
        (s.cfg.chip.ctrl ch.slot).toNat [requestByte s.cfg.chip ch.prio] := by
  have hpromoted := StaysQuiet.busClosed.promoteTxns ch.promos s hd
  have hloaded := StaysQuiet.busClosed.txnLoadTx ch.slot load _ hpromoted
  rw [sendTxns, txnWrite_chip, letOutside_of_nil hloaded, txnLoadTx_chip, letOutside_of_nil hpromoted]
  simp

/-- A frame is accepted with a dlc of at most 15 and a slot to put it in (44_can_tx.md R450). -/
theorem execCanSend_ok {flags : Byte} {id : BitVec 32} {dlc : Byte} {data : Vector Byte 8} {s t : State} {r : List Byte}
    (h : execCanSend flags id dlc data s = .next t) (hr : t.response = some ⟨.ok, r⟩) :
    dlc.toNat ≤ 15 ∧ ∃ ch,
      chooseSlot (busySlots s.cfg.chip ((letOutside s).chip.status s.cfg.chip)) s.can.slotPrio = some ch ∧
      t.chip = (sendTxns ch (loadBytes (frameExt flags) (frameRtr flags) (frameId (frameExt flags) id) dlc data)
        (txnReadStatus s).2).chip := by
  unfold execCanSend at h
  split at h
  · cases h; cases hr
  · next hdlc =>
    simp only [txnReadStatus_value, txnReadStatus_cfg, txnReadStatus_can] at h
    split at h
    · cases h; cases hr
    · next ch hch => cases h; exact ⟨by omega, ch, hch, rfl⟩

/-- Settles O55: the slot chosen is not busy, and the load and the request, which come last, leave it so. -/
theorem acceptedFrameStandsInTheSlot : Obligations.AcceptedFrameStandsInTheSlot := by
  intro s t flags id dlc data hm hd h hr
  obtain ⟨hdlc, ch, hch, hchip⟩ := execCanSend_ok h hr
  rw [letOutside_of_nil hd, hm] at hch
  rw [sendTxns_chip (StaysQuiet.busClosed.txnReadStatus s hd), txnReadStatus_cfg, hm] at hchip
  refine ⟨ch.slot, ?free, ?pending, ?bytes⟩
  case free =>
    have hfree := chooseSlot_slot (nodup_busySlots _ _) hch
    rw [mem_busySlots, slotBusy_status] at hfree
    simpa using hfree
  case pending =>
    rw [hchip]
    exact Chip.txreq_request _ _ _
  case bytes =>
    rw [hchip, ← loadBytes_eq_operandBytes]
    refine Chip.slotBytes_of_load _ _ _ hdlc fun i hi => ?_
    rw [Chip.cell_request]
    exact Chip.cell_load _ _ (length_loadBytes_le _ _ _ _ _) i hi

end Sys2Proof.Machine
end

section
/-! PROOF. What endpoint 0 sends (40_usb_control.md R204, R205, R208): the packets of a transfer, and with them the
completion of an IN transaction (O30) and the requests that reply with data (O32, O33). -/

namespace Sys2Proof.Machine

/-! ### The events of a poll -/

/-- A poll takes the oldest event from the queue and handles it. -/
theorem serviceSie_of_queue {s : State} {ev : SieEvent} {q : List SieEvent} (h : s.sie.queue = ev :: q) :
    serviceSie s = handleEvent ev (s.withQueue q) := by
  unfold serviceSie
  rw [h]
  rfl

/-! ### One packet of a transfer -/

/-- A byte stored is where it was stored. -/
theorem Memory.read_writeList_at {m : Memory} (hm : m.wf = true) (x : Nat) {vs : List Byte} {j : Nat}
    (hj : j < vs.length) : (m.writeList x vs).read (x + j) = vs[j] := by
  rw [Memory.read_writeList vs x (x + j) hm, if_pos (Nat.le_add_right x j), Nat.add_sub_cancel_left,
    List.getElem?_eq_getElem hj, Option.getD_some]

section
variable {s : State} {x : Xfer}

theorem getElem_chunkBytes {cfg : Params} (hx : x.off + x.rem ≤ x.data.length) {j : Nat}
    (hj : j < min cfg.ep0Size.bytes x.rem) (hj' : j < (chunkBytes cfg x).length) :
    (chunkBytes cfg x)[j] = substByte cfg x.subst (x.off + j) (x.data.getD (x.off + j) 0) := by
  have hcut : j < ((x.data.drop x.off).take (min cfg.ep0Size.bytes x.rem)).length := by
    rw [List.length_take, List.length_drop]
    omega
  rw [List.getD_eq_getElem _ _ (by omega : x.off + j < x.data.length)]
  refine (getElem_substBytes cfg x.subst _ x.off j hj' hcut).trans ?_
  rw [List.getElem_take, List.getElem_drop]

/-- The packet's bytes stand in the endpoint-0 IN buffer, with the serial characters in their places. -/
theorem chunkSent_byteAt (hm : s.mem.wf = true) (hx : x.off + x.rem ≤ x.data.length) {j : Nat}
    (hj : j < min s.cfg.ep0Size.bytes x.rem) :
    (chunkSent x s).byteAt .ep0in j = substByte s.cfg x.subst (x.off + j) (x.data.getD (x.off + j) 0) := by
  have hlen : j < (chunkBytes s.cfg x).length := by rw [length_chunkBytes hx]; exact hj
  exact (Memory.read_writeList_at hm Buf.ep0in.base hlen).trans (getElem_chunkBytes hx hj hlen)

/-- A packet changes no byte but its own places. -/
theorem chunkSent_read_other (hm : s.mem.wf = true) {a : Nat}
    (ha : ∀ j < min s.cfg.ep0Size.bytes x.rem, a ≠ Buf.ep0in.base + j) : (chunkSent x s).mem.read a = s.mem.read a := by
  refine Memory.read_writeList_outside hm ?_
  by_contra hin
  have hlen := length_chunkBytes_le s.cfg x
  exact ha (a - Buf.ep0in.base) (by omega) (by omega)

/-- The first packet of a transfer counts from the reply's first byte. -/
theorem chunkSent_of_start (h : x.off = 0) : chunkSent x s = { s with
    mem := (chunkSent x s).mem
    bds := { s.bds with ep0in := ⟨.sie, min s.cfg.ep0Size.bytes x.rem⟩ }
    ctl := { s.ctl with xfer := some { x with
      off := min s.cfg.ep0Size.bytes x.rem, rem := x.rem - min s.cfg.ep0Size.bytes x.rem } } } := by
  rw [chunkSent, h, Nat.zero_add]

/-- `StartIn` on a buffer of the block's begins the transfer and sends its first packet (R204, R205). -/
theorem startIn_replies (hm : s.mem.wf = true) (ho : (s.bd .ep0in).own = .sw) (data : List Byte) (wLength : Half)
    (subst : Bool) : ∃ t, startIn data wLength subst s = .next t ∧ Replies data wLength subst s t := by
  have hx : (newXfer s.cfg data wLength subst).off + (newXfer s.cfg data wLength subst).rem ≤ data.length :=
    (Nat.zero_add _).trans_le (Nat.min_le_right _ _)
  refine ⟨_, startIn_eq_next.mpr ⟨ho, rfl⟩, ⟨chunkSent_of_start rfl, ?packet, fun a ha => chunkSent_read_other hm ha⟩⟩
  case packet =>
    intro j hj
    have hbyte := chunkSent_byteAt hm hx hj
    rwa [show (newXfer s.cfg data wLength subst).off = 0 from rfl, Nat.zero_add] at hbyte

end

/-! ### The completion of an IN transaction (40_usb_control.md R230, R231) -/

section
variable {s : State} {x : Xfer}

theorem handleEp0In_of_address {a : BitVec 7} (h : s.ctl.pendingAddr = some a) :
    handleEp0In s = .next { s with dev := { s.dev with addr := a }, ctl := { s.ctl with pendingAddr := none } } := by
  simp only [handleEp0In, h]

theorem handleEp0In_of_transfer (ha : s.ctl.pendingAddr = none) (hx : s.ctl.xfer = some x) :
    handleEp0In s = continueIn x s := by
  simp only [handleEp0In, ha, hx]

theorem handleEp0In_of_none (ha : s.ctl.pendingAddr = none) (hx : s.ctl.xfer = none) : handleEp0In s = .next s := by
  simp only [handleEp0In, ha, hx]

theorem continueIn_of_more (hr : 0 < x.rem) (ho : (s.bd .ep0in).own = .sw) :
    continueIn x s = .next (chunkSent x s) :=
  (if_pos hr).trans (sendChunk_eq_next.mpr ⟨ho, rfl⟩)

theorem continueIn_of_zeroLength (hr : x.rem = 0) (hz : x.zlpDue = true) (ho : (s.bd .ep0in).own = .sw) :
    continueIn x s = .next
      { s.setBd .ep0in ⟨.sie, 0⟩ with ctl := { s.ctl with xfer := some { x with zlpDue := false } } } := by
  rw [continueIn, if_neg (by omega), if_pos hz]
  exact arm_eq ho

theorem continueIn_of_end (hr : x.rem = 0) (hz : x.zlpDue = false) :
    continueIn x s = .next { s with ctl := { s.ctl with xfer := none } } := by
  rw [continueIn, if_neg (by omega), if_neg (by rw [hz]; nofun)]

end

/-- Settles O30: the event is taken, and the pending address, the transfer's remainder and its due zero-length packet
choose the case; the invariant keeps the packet's bytes within the reply. -/
theorem ep0InCompletion : Obligations.Ep0InCompletion := by
  intro s q hinv hq
  rw [serviceSie_of_queue hq]
  refine ⟨?address, ?packet, ?zeroLength, ?ends, ?nothing⟩
  case address => exact fun a ha => handleEp0In_of_address (s := s.withQueue q) ha
  case packet =>
    intro x ha hx hr ho
    obtain ⟨hdata, -⟩ := hinv.transfer x hx
    exact ⟨_, (handleEp0In_of_transfer (s := s.withQueue q) ha hx).trans (continueIn_of_more hr ho), rfl,
      fun j hj => chunkSent_byteAt (s := s.withQueue q) hinv.memory hdata hj,
      fun a hother => chunkSent_read_other (s := s.withQueue q) hinv.memory hother⟩
  case zeroLength =>
    exact fun x ha hx hr hz ho =>
      (handleEp0In_of_transfer (s := s.withQueue q) ha hx).trans (continueIn_of_zeroLength hr hz ho)
  case ends =>
    exact fun x ha hx hr hz => (handleEp0In_of_transfer (s := s.withQueue q) ha hx).trans (continueIn_of_end hr hz)
  case nothing => exact fun ha hx => handleEp0In_of_none (s := s.withQueue q) ha hx

/-! ### The characters of the serial number (40_usb_control.md R208) -/

section
variable {cfg : Params} {o : Nat}

/-- The lowest slot of an offset decides its character. -/
theorem serialChar_of_slot : ∀ {j : Fin 4}, cfg.serialSlots[j] = o → (∀ k < j, cfg.serialSlots[k] ≠ o) →
    serialChar cfg o = some cfg.serial[j]
  | 0, h, _ => if_pos h.symm
  | 1, h, hlow => (if_neg (hlow 0 (by decide)).symm).trans (if_pos h.symm)
  | 2, h, hlow =>
    (if_neg (hlow 0 (by decide)).symm).trans ((if_neg (hlow 1 (by decide)).symm).trans (if_pos h.symm))
  | 3, h, hlow =>
    (if_neg (hlow 0 (by decide)).symm).trans
      ((if_neg (hlow 1 (by decide)).symm).trans ((if_neg (hlow 2 (by decide)).symm).trans (if_pos h.symm)))

theorem serialChar_of_no_slot (h : ∀ j : Fin 4, cfg.serialSlots[j] ≠ o) : serialChar cfg o = none :=
  (if_neg (h 0).symm).trans ((if_neg (h 1).symm).trans ((if_neg (h 2).symm).trans (if_neg (h 3).symm)))

theorem substByte_of_slot {j : Fin 4} (h : cfg.serialSlots[j] = o) (hlow : ∀ k < j, cfg.serialSlots[k] ≠ o) (b : Byte) :
    substByte cfg true o b = cfg.serial[j] := by
  rw [substByte, if_pos rfl, serialChar_of_slot h hlow, Option.getD_some]

theorem substByte_of_no_slot {subst : Bool} (h : subst = false ∨ ∀ j : Fin 4, cfg.serialSlots[j] ≠ o) (b : Byte) :
    substByte cfg subst o b = b := by
  rcases h with rfl | h
  · rfl
  · rw [substByte, serialChar_of_no_slot h, Option.getD_none, ite_self]

end

/-! ### The requests that reply -/

section
variable {s : State}

theorem stringOf_eq_some {d : DescriptorSet} {i : Nat} {str : List Byte} :
    stringOf d i = some str ↔ d.strings[i]? = some (some str) := by
  rw [stringOf]
  cases d.strings[i]? <;> simp

theorem execGetDescriptorString_of_string (d : BitVec 1) (r : BitVec 5) {i : Byte} (x l : Half) {str : List Byte}
    (h : (descriptors s.cfg).strings[i.toNat]? = some (some str)) :
    execGetDescriptorString d r i x l s = startIn str l (i == s.cfg.serialStrIndex && s.cfg.serialAvailable) s := by
  rw [execGetDescriptorString, stringOf_eq_some.mpr h]

theorem execGetStatus_of_endpoint0 (d : BitVec 1) (v : Half) {x : Half} (l : Half)
    (hx : lowByte x ∈ ([0x00, 0x80] : List Byte)) : execGetStatus d 2 v x l s = startIn [0x00, 0x00] l false s := by
  rw [execGetStatus, if_neg (not_not.mpr rfl), if_pos (isEndpoint0_of_mem hx)]

theorem not_isEndpoint0_of_not_mem {e : Byte} (h : e ∉ ([0x00, 0x80] : List Byte)) : ¬ isEndpoint0 e = true := by
  simpa [isEndpoint0] using h

theorem execGetStatus_of_endpoint (d : BitVec 1) (v : Half) {x : Half} (l : Half) {e : Endpoint}
    (hx : lowByte x ∉ ([0x00, 0x80] : List Byte)) (he : endpointOf s.cfg (lowByte x) = some e) :
    execGetStatus d 2 v x l s = startIn (haltReply (s.dev.halt.get e)) l false s := by
  rw [execGetStatus, if_neg (not_not.mpr rfl), if_neg (not_isEndpoint0_of_not_mem hx), he]

theorem toNat_le_one_of_eq {b : Byte} (h : b = 0 ∨ b = 1) : b.toNat ≤ 1 := by
  rcases h with rfl | rfl <;> decide

end

/-- Settles O32: each of the replies is `StartIn` of the descriptor, and the characters of the serial number are those
that `Subst` takes. -/
theorem descriptorRequestsReply : Obligations.DescriptorRequestsReply := by
  intro s d r x l hinv ho
  refine ⟨startIn_replies hinv.memory ho _ _ _, startIn_replies hinv.memory ho _ _ _, ?string, ?subst⟩
  case string =>
    intro i str hstr
    obtain ⟨t, ht, hreply⟩ := startIn_replies hinv.memory ho str l (i == s.cfg.serialStrIndex && s.cfg.serialAvailable)
    refine ⟨t, (execGetDescriptorString_of_string d r x l hstr).trans ht, hreply, fun o hfirst => ⟨?_, ?_⟩⟩
    · intro j hserial hslot hlow
      rw [hreply.packet o hfirst, hserial]
      exact substByte_of_slot hslot hlow _
    · intro hother
      rw [hreply.packet o hfirst]
      exact substByte_of_no_slot hother _
  case subst =>
    exact fun o b => ⟨fun j hslot hlow => substByte_of_slot hslot hlow b,
      fun hother => substByte_of_no_slot (.inr hother) b, rfl⟩

/-- Settles O33: each of the requests is `StartIn` of its reply. -/
theorem dataRequestsReply : Obligations.DataRequestsReply := by
  intro s d r v x l hinv ho
  have hreply := fun data => startIn_replies hinv.memory ho data l false
  refine ⟨?endpoint0, ?endpoint, hreply _, ?interface, hreply _, hreply _, hreply _⟩
  case endpoint0 =>
    intro hx
    obtain ⟨t, ht, h⟩ := hreply [0x00, 0x00]
    exact ⟨t, (execGetStatus_of_endpoint0 d v l hx).trans ht, h⟩
  case endpoint =>
    intro e hx he
    obtain ⟨t, ht, h⟩ := hreply (haltReply (s.dev.halt.get e))
    exact ⟨t, (execGetStatus_of_endpoint d v l hx he).trans ht, h⟩
  case interface =>
    intro hx
    obtain ⟨t, ht, h⟩ := hreply [0x00]
    exact ⟨t, (if_pos (toNat_le_one_of_eq hx)).trans ht, h⟩

end Sys2Proof.Machine
end

section
/-! PROOF. What a poll does with what returns the OUT buffer of endpoint 0 (O7, O31), and with a USB bus reset (O29). -/

namespace Sys2Proof.Machine

theorem andThen_assoc (r : Res) (f g : State → Res) :
    andThen (andThen r f) g = andThen r fun t => andThen (f t) g := by
  cases r <;> rfl

section
variable {s : State}

theorem rearmEp0out_eq (ho : (s.bd .ep0out).own = .sw) : rearmEp0out s = .next (rearmed s) :=
  rearmEp0out_eq_next.mpr ⟨ho, rfl⟩

theorem handleEp0Out_of_setup (ho : (s.bd .ep0out).own = .sw) (hs : s.bds.ep0setup = true) :
    handleEp0Out s = andThen (handleSetup s) rearmEp0out := by
  rw [handleEp0Out, if_neg (by rw [ho]; nofun), if_pos hs]

theorem handleEp0Out_of_data (ho : (s.bd .ep0out).own = .sw) (hs : s.bds.ep0setup = false) :
    handleEp0Out s = andThen (handleEp0Data s) rearmEp0out := by
  rw [handleEp0Out, if_neg (by rw [ho]; nofun), hs, if_neg Bool.false_ne_true]

/-! ### The data stage of SET_LINE_CODING (40_usb_control.md R232) -/

/-- What every place of the line coding holds after bytes are stored from place `i` on. -/
theorem getElem_storeLineCoding : ∀ (vs : List Byte) (lc : Vector Byte 7) (i j : Nat) (hj : j < 7),
    (storeLineCoding lc i vs)[j] = if i ≤ j then (vs[j - i]?).getD lc[j] else lc[j]
  | [], _, _, _, _ => by simp [storeLineCoding]
  | v :: vs, lc, i, j, hj => by
    rw [storeLineCoding, getElem_storeLineCoding vs _ (i + 1) j hj, Vector.getElem_setIfInBounds hj]
    rcases Nat.lt_trichotomy i j with h | rfl | h
    · rw [if_pos (show i + 1 ≤ j from h), if_pos h.le, if_neg (by omega), show j - i = j - (i + 1) + 1 by omega,
        List.getElem?_cons_succ]
    · rw [if_neg (by omega), if_pos rfl, if_pos le_rfl, Nat.sub_self]
      rfl
    · rw [if_neg (by omega), if_neg (by omega), if_neg (by omega)]

/-- The line coding after the data stage: the leading bytes received are stored. -/
def receivedLineCoding (s : State) : Vector Byte 7 :=
  storeLineCoding s.dev.lineCoding 0 (s.mem.readList Buf.ep0out.base (min (s.bd .ep0out).count 7))

theorem getElem_receivedLineCoding {j : Nat} (hj : j < 7) :
    (receivedLineCoding s)[j] = if j < (s.bd .ep0out).count then s.byteAt .ep0out j else s.dev.lineCoding[j] := by
  rw [receivedLineCoding, getElem_storeLineCoding _ _ _ _ hj, if_pos (Nat.zero_le j), Nat.sub_zero]
  by_cases hc : j < (s.bd .ep0out).count
  · have hlen : j < (s.mem.readList Buf.ep0out.base (min (s.bd .ep0out).count 7)).length := by
      rw [Memory.length_readList]
      omega
    rw [if_pos hc, List.getElem?_eq_getElem hlen, Option.getD_some, Memory.getElem_readList, State.byteAt]
  · rw [if_neg hc, List.getElem?_eq_none (by rw [Memory.length_readList]; omega), Option.getD_none]

theorem lineCodingData_received (hout : (s.bd .ep0out).own = .sw) : lineCodingData s = statusIn { s with
    dev := { s.dev with lineCoding := receivedLineCoding s }
    ctl := { s.ctl with lcPending := false } } := by
  have h8 : 8 ≤ Buf.ep0out.size s.cfg := eight_le_ep0Size_bytes s.cfg.ep0Size
  unfold lineCodingData
  rw [memReadList_eq hout (by omega)]
  rfl

theorem handleEp0Data_of_lineCoding (hl : s.ctl.lcPending = true) (hout : (s.bd .ep0out).own = .sw)
    (hin : (s.bd .ep0in).own = .sw) : handleEp0Data s = .next { s with
      dev := { s.dev with lineCoding := receivedLineCoding s }
      ctl := { s.ctl with lcPending := false }
      bds := { s.bds with ep0in := ⟨.sie, 0⟩ } } := by
  rw [handleEp0Data, if_pos hl, lineCodingData_received hout]
  exact statusIn_eq_next.mpr ⟨hin, rfl⟩

theorem handleEp0Data_of_status (hl : s.ctl.lcPending = false) :
    handleEp0Data s = .next { s with ctl := { s.ctl with xfer := none } } := by
  rw [handleEp0Data, hl, if_neg Bool.false_ne_true]

end

/-- Settles O31: the data stage reads within the OUT buffer, which the block then re-arms. -/
theorem ep0OutCompletion : Obligations.Ep0OutCompletion := by
  intro s q hq hout hs
  have hservice : serviceSie s = andThen (handleEp0Data (s.withQueue q)) rearmEp0out :=
    (serviceSie_of_queue hq).trans (handleEp0Out_of_data hout hs)
  rw [hservice]
  refine ⟨fun hl hin => ?lineCoding, fun hl => ?status⟩
  case lineCoding =>
    rw [handleEp0Data_of_lineCoding (s := s.withQueue q) hl hout hin, andThen_next]
    exact ⟨_, rearmEp0out_eq hout, rfl, fun j hj => getElem_receivedLineCoding (s := s.withQueue q) hj⟩
  case status =>
    rw [handleEp0Data_of_status (s := s.withQueue q) hl, andThen_next]
    exact rearmEp0out_eq hout

/-- Settles O7: the packet is in a buffer of the block's, and what it decodes to is a control request, which the dispatch
runs as `exec` does. -/
theorem pollRunsTheDecodedRequest : Obligations.PollRunsTheDecodedRequest := by
  intro s q i hq hout hs hdecode
  have hown : (s.bd .ep0out).own = .sw := by rw [hout]
  have hsetup : handleSetup (s.withQueue q) = exec i (leaveStall (s.withQueue q)) := by
    rw [handleSetup_eq (s := s.withQueue q) hown]
    change dispatchSetup (decodeSetup (s.mem.readList Buf.ep0out.base 8)) _ = _
    rw [hdecode, dispatchSetup_eq_exec (decodeSetup_isEncoding (m := s.cfg.chip) hdecode).opClass]
  have hservice : serviceSie s = andThen (exec i (leaveStall (s.withQueue q))) rearmEp0out :=
    (serviceSie_of_queue hq).trans
      ((handleEp0Out_of_setup (s := s.withQueue q) hown hs).trans (congrArg (andThen · _) hsetup))
  change execUsbPoll s = _
  rw [execUsbPoll, hservice, andThen_assoc]
  rfl

/-! ### The endpoints cleared (40_usb_control.md R215, R240) -/

theorem clearEndpoints_eq (s : State) : clearEndpoints s = { s with
    dev := { s.dev with halt := ⟨false, false, false⟩ }
    sie := { s.sie with toggles := { s.sie.toggles with notify := false, out := false, in_ := false } }
    pulses := s.pulses ++ [.toggleReset .notify, .toggleReset .out, .toggleReset .in_] } := by
  simp [clearEndpoints, setHalt, Halt.set, toggleReset, Toggles.restart]

/-- `BulkReset` after the endpoints are cleared, up to the arming of the OUT buffers. -/
theorem bulkTakeBack_clearEndpoints (s : State) : bulkTakeBack (clearEndpoints s) = { s with
    dev := { s.dev with halt := ⟨false, false, false⟩ }
    bds := { s.bds with bin0 := ⟨.sw, 0⟩, bin1 := ⟨.sw, 0⟩, bout0 := ⟨.sw, 0⟩, bout1 := ⟨.sw, 0⟩ }
    bin := ⟨0, 0, 0⟩
    bout := ⟨0, 0⟩
    sie := {
      queue := s.sie.queue
      toggles := { s.sie.toggles with notify := false, out := false, in_ := false }
      nextIn := 0
      nextOut := 0 }
    pulses := s.pulses ++ [.toggleReset .notify, .toggleReset .out, .toggleReset .in_, .ppReset] } := by
  simp [clearEndpoints_eq, bulkTakeBack, ppReset]

/-! ### The bulk steps of a poll with nothing to do -/

section
variable {s : State}

theorem bulkOutZeroLength_of_notConfigured (h : s.dev.config = 0) : bulkOutZeroLength s = .next s :=
  bulkOutZeroLength_eq_next.mpr (by rw [if_neg]; simp [State.configured, h])

theorem idleStep_of_empty (h : s.bin.fill = 0) : idleStep s = .next { s with bin := { s.bin with idle := 0 } } :=
  idleStep_eq_next.mpr (.inl ⟨h, rfl⟩)

end

/-- Settles O29: the reset leaves the device not configured and the managers empty, so that the bulk steps after it do
nothing. -/
theorem usbPollOnBusReset : Obligations.UsbPollOnBusReset := by
  intro s q hq hin hout
  have hservice : serviceSie s = .next (bulkTakeBack (busResetTaken (s.withQueue q))) :=
    (serviceSie_of_queue hq).trans (handleBusReset_eq_next.mpr ⟨hin, hout, rfl⟩)
  change execUsbPoll s = _
  rw [execUsbPoll_eq_next]
  refine ⟨_, _, _, hservice, bulkOutZeroLength_of_notConfigured rfl, idleStep_of_empty rfl, ?_⟩
  have hreset : bulkTakeBack (busResetTaken (s.withQueue q)) =
      { bulkTakeBack (clearEndpoints { s.withQueue q with dev := { s.dev with addr := 0, config := 0 } }) with
        ctl := idleCtl false
        bds := {
          ep0out := ⟨.sie, s.cfg.ep0Size.bytes⟩, ep0setup := false, ep0in := ⟨.sw, 0⟩
          bin0 := ⟨.sw, 0⟩, bin1 := ⟨.sw, 0⟩, bout0 := ⟨.sw, 0⟩, bout1 := ⟨.sw, 0⟩ } } := rfl
  rw [hreset, bulkTakeBack_clearEndpoints]
  rfl

end Sys2Proof.Machine
end

section
/-! PROOF. The requests without a data reply: those that set a halt (O34), SET_CONFIGURATION (O35), those that are only
acknowledged (O36), and the refusals of every request rule (O37) (40_usb_control.md R210 to R226). -/

namespace Sys2Proof.Machine

/-! ### The branches of the requests -/

section
variable {s : State}

theorem statusIn_eq (h : (s.bd .ep0in).own = .sw) : statusIn s = .next (acknowledged s) :=
  statusIn_eq_next.mpr ⟨h, rfl⟩

/-- `BulkReset` of a request with value `c`: the bulk-OUT buffers are armed unless `c` is 0 (41_usb_bulk.md R300). -/
theorem bulkReset_of_value (c : Byte) : bulkReset (c != 0) s = .next { bulkTakeBack s with
    bds := { s.bds with
      bin0 := ⟨.sw, 0⟩, bin1 := ⟨.sw, 0⟩
      bout0 := if c = 0 then ⟨.sw, 0⟩ else ⟨.sie, s.cfg.bulkSize.val⟩
      bout1 := if c = 0 then ⟨.sw, 0⟩ else ⟨.sie, s.cfg.bulkSize.val⟩ } } := by
  rw [bulkReset_eq]
  by_cases hc : c = 0
  · rw [if_neg (by rw [hc]; nofun), if_pos hc]
    rfl
  · rw [if_pos (bne_iff_ne.mpr hc), if_neg hc]
    rfl

theorem execGetDescriptorString_of_none (d : BitVec 1) (r : BitVec 5) {i : Byte} (x l : Half)
    (h : ∀ str, (descriptors s.cfg).strings[i.toNat]? ≠ some (some str)) :
    execGetDescriptorString d r i x l s = .next (raiseStall s) := by
  have hnone : stringOf (descriptors s.cfg) i.toNat = none :=
    Option.eq_none_iff_forall_ne_some.mpr fun str => mt stringOf_eq_some.mp (h str)
  rw [execGetDescriptorString, hnone]

section
variable {x : Half} (d : BitVec 1) (r : BitVec 5) (v l : Half)

/-- GET_STATUS takes the recipient "endpoint" alone, and an endpoint that there is (R218). -/
theorem execGetStatus_refused
    (h : r ≠ 2 ∨ (endpointOf s.cfg (lowByte x) = none ∧ lowByte x ∉ ([0x00, 0x80] : List Byte))) :
    execGetStatus d r v x l s = .next (raiseStall s) := by
  by_cases hr : r ≠ 2
  · exact if_pos hr
  · obtain ⟨he, hx⟩ := h.resolve_left hr
    rw [execGetStatus, if_neg hr, if_neg (not_isEndpoint0_of_not_mem hx), he]

/-- So do SET_FEATURE and CLEAR_FEATURE, of the endpoint halt alone (R219, R220). -/
theorem featureRequests_refused
    (h : r ≠ 2 ∨ v ≠ 0 ∨ (endpointOf s.cfg (lowByte x) = none ∧ lowByte x ∉ ([0x00, 0x80] : List Byte))) :
    execSetFeature d r v x l s = .next (raiseStall s) ∧ execClearFeature d r v x l s = .next (raiseStall s) := by
  by_cases hrv : r ≠ 2 ∨ v ≠ 0
  · exact ⟨if_pos hrv, if_pos hrv⟩
  · obtain ⟨he, hx⟩ := (or_assoc.mpr h).resolve_left hrv
    have h0 := not_isEndpoint0_of_not_mem hx
    rw [execSetFeature, execClearFeature, if_neg hrv, if_neg hrv, he]
    exact ⟨if_neg h0, if_neg h0⟩

theorem haltIsSelected : ¬ ((2 : BitVec 5) ≠ 2 ∨ (0 : Half) ≠ 0) := by decide

/-- Endpoint 0 has no halt to write: the requests only acknowledge (R219, R220). -/
theorem featureRequests_of_endpoint0 (he : endpointOf s.cfg (lowByte x) = none)
    (hx : lowByte x ∈ ([0x00, 0x80] : List Byte)) :
    execSetFeature d 2 0 x l s = statusIn s ∧ execClearFeature d 2 0 x l s = statusIn s := by
  have h0 := isEndpoint0_of_mem hx
  rw [execSetFeature, execClearFeature, if_neg haltIsSelected, if_neg haltIsSelected, he]
  exact ⟨if_pos h0, if_pos h0⟩

theorem featureRequests_of_endpoint {e : Endpoint} (he : endpointOf s.cfg (lowByte x) = some e) :
    execSetFeature d 2 0 x l s = statusIn (setHalt e true s) ∧
      execClearFeature d 2 0 x l s = statusIn (toggleReset e (setHalt e false s)) := by
  rw [execSetFeature, execClearFeature, if_neg haltIsSelected, if_neg haltIsSelected, he]
  exact ⟨rfl, rfl⟩

end

end

/-! ### The obligations -/

/-- Settles O34: both requests end in the status packet, after the halt of the endpoint, if there is one, is written. -/
theorem featureRequestsSetTheHalt : Obligations.FeatureRequestsSetTheHalt := by
  refine fun s d x l ho => ⟨fun e he => ?endpoint, fun he hx => ?endpoint0⟩
  case endpoint =>
    obtain ⟨hset, hclear⟩ := featureRequests_of_endpoint d l he
    exact ⟨hset.trans (statusIn_eq (s := setHalt e true s) ho),
      hclear.trans (statusIn_eq (s := toggleReset e (setHalt e false s)) ho)⟩
  case endpoint0 =>
    obtain ⟨hset, hclear⟩ := featureRequests_of_endpoint0 d l he hx
    exact ⟨hset.trans (statusIn_eq ho), hclear.trans (statusIn_eq ho)⟩

/-- Settles O35: the endpoints are cleared with the new value, `BulkReset` starts them again, and the status packet
follows. -/
theorem setConfigurationRestartsTheEndpoints : Obligations.SetConfigurationRestartsTheEndpoints := by
  intro s d r v x l ho hv
  refine (if_pos hv).trans ?_
  rw [bulkReset_of_value, bulkTakeBack_clearEndpoints, andThen_next]
  exact statusIn_eq ho

/-- Settles O36: the address waits for the status packet, which the others only send; a line coding waits for its
data. -/
theorem requestsWithoutDataAcknowledge : Obligations.RequestsWithoutDataAcknowledge := by
  refine fun s d r v x l => ⟨?awaits, fun ho => ⟨?address, ?noData, ?interface, statusIn_eq ho, statusIn_eq ho⟩⟩
  case awaits => exact fun hl => if_neg hl
  case address =>
    exact fun hv => (if_neg (Nat.not_lt.mpr hv)).trans (statusIn_eq (s := { s with ctl := _ }) ho)
  case noData =>
    change execSetLineCoding d r v x 0 s = _
    rw [execSetLineCoding, if_pos rfl]
    exact statusIn_eq ho
  case interface => exact fun hx => (if_pos ⟨toNat_le_one_of_eq hx, rfl⟩).trans (statusIn_eq ho)

/-- Settles O37: each rule's condition fails, and what is left of it is the stall. -/
theorem refusedRequestsStall : Obligations.RefusedRequestsStall := by
  intro s d r v x l t i stalled
  refine ⟨fun hi => if_neg hi, fun hi => if_neg hi, fun hstr => execGetDescriptorString_of_none d r x l hstr, rfl,
    fun hv => if_pos hv, ?configuration, ?getInterface, ?setInterface, fun h => execGetStatus_refused d r v l h,
    fun h => featureRequests_refused d r v l h⟩
  case configuration => exact fun h0 hc => if_neg (not_or.mpr ⟨h0, hc⟩)
  case getInterface => exact fun hx => if_neg (Nat.not_le.mpr hx)
  case setInterface => exact fun h => if_neg fun ⟨hx, hv⟩ => h.elim (Nat.not_lt.mpr hx) (not_not.mpr hv)

end Sys2Proof.Machine
end

section
/-! PROOF. The bulk endpoint manager (41_usb_bulk.md): the effect of each bulk operation of the client (O20 to O23), and
the poll: when it completes (O26), what it leaves without an event of endpoint 0 (O27), and when it flushes (O28). -/

namespace Sys2Proof.Machine

/-! ### The bulk operations of the client -/

theorem boolByte_decide (p : Prop) [Decidable p] : boolByte (decide p) = if p then 0x01 else 0x00 := by
  by_cases h : p <;> simp [boolByte, h]

section
variable {s : State}

theorem State.inReady_eq_decide :
    s.inReady = decide (s.dev.config ≠ 0 ∧ (s.bd (.bin s.bin.active)).own = .sw) := by
  rw [Bool.eq_iff_iff, State.inReady_eq_true, decide_eq_true_iff]

theorem State.outHasData_eq_decide :
    s.outHasData = decide (s.dev.config ≠ 0 ∧ (s.bd (.bout s.bout.active)).own = .sw ∧
      s.bout.pos < (s.bd (.bout s.bout.active)).count) := by
  rw [Bool.eq_iff_iff, State.outHasData_eq_true, decide_eq_true_iff]

/-- A byte put while the active buffer is busy, or before configuration, is dropped (R302). -/
theorem execUsbPut_of_busy (h : s.inReady = false) (b : Byte) : execUsbPut b s = .next (respond .ok [] s) := by
  rw [execUsbPut, h]
  rfl

/-- The state after the active buffer, which is free, has taken a byte: handed over when that fills it (R302). -/
def bytePut (b : Byte) (s : State) : State :=
  if s.bin.fill + 1 = s.cfg.bulkSize.val then handedOver (appended b s) else appended b s

theorem execUsbPut_of_ready (hinv : s.Inv) (h : s.inReady = true) (b : Byte) :
    execUsbPut b s = .next (respond .ok [] (bytePut b s)) := by
  obtain ⟨-, ho⟩ := State.inReady_eq_true.mp h
  have hput : putByte b s = .next (bytePut b s) := putByte_eq_next.mpr ⟨ho, hinv.fill, rfl⟩
  rw [execUsbPut, if_pos h, hput]
  rfl

theorem bytePut_mem (b : Byte) : (bytePut b s).mem = s.mem.write ((Buf.bin s.bin.active).base + s.bin.fill) b := by
  unfold bytePut
  split <;> rfl

/-- Without an unread byte nothing of the block changes (R311). -/
theorem execUsbGet_of_empty (h : s.outHasData = false) :
    execUsbGet s = .next (respond .ok [Config.freeByte s.draws] (s.draw 1)) := by
  rw [execUsbGet, h]
  rfl

/-- The state after the next unread byte is taken: an exhausted buffer is handed back (R311). -/
def byteTaken (s : State) : State :=
  if s.bout.pos + 1 = (s.bd (.bout s.bout.active)).count then passedOn s
  else { s with bout := ⟨s.bout.active, s.bout.pos + 1⟩ }

theorem execUsbGet_of_data (hinv : s.Inv) (h : s.outHasData = true) :
    execUsbGet s = .next (respond .ok [s.byteAt (.bout s.bout.active) s.bout.pos] (byteTaken s)) := by
  obtain ⟨-, ho, hpos⟩ := State.outHasData_eq_true.mp h
  rw [execUsbGet, if_pos h]
  exact getByte_eq_next.mpr ⟨ho, Nat.lt_of_lt_of_le hpos (hinv.count (.bout s.bout.active)), rfl⟩

end

/-- Settles O20: both operations answer the readiness that the manager computes. -/
theorem readinessResults : Obligations.ReadinessResults := by
  intro s
  rw [← boolByte_decide, ← boolByte_decide, ← State.inReady_eq_decide, ← State.outHasData_eq_decide]
  exact ⟨rfl, rfl⟩

/-- Settles O21: the byte is stored in a buffer of the block's, which is handed over when that fills it. -/
theorem usbPutEffect : Obligations.UsbPutEffect := by
  refine fun s b hinv => ⟨fun hbusy => execUsbPut_of_busy ?busy b, fun hc ho => ?stored⟩
  case busy =>
    rw [State.inReady_eq_decide, decide_eq_false_iff_not]
    rintro ⟨hc, ho⟩
    exact hbusy.elim hc fun hsie => State.ne_of_own ho hsie rfl
  case stored =>
    refine ⟨_, execUsbPut_of_ready hinv (State.inReady_eq_true.mpr ⟨hc, ho⟩) b, ?byte, fun a ha => ?others, ?state⟩
    case byte => exact (congrArg (Memory.read · _) (bytePut_mem b)).trans (Memory.read_write_same _ _ hinv.memory)
    case others =>
      exact (congrArg (Memory.read · a) (bytePut_mem b)).trans (Memory.read_write_other _ _ _ ha hinv.memory)
    case state =>
      unfold bytePut
      by_cases hfull : s.bin.fill + 1 = s.cfg.bulkSize.val
      · rw [if_pos hfull, if_pos hfull, ← hfull]
        rfl
      · rw [if_neg hfull, if_neg hfull]
        rfl

/-- Settles O22: the filled buffer, if there is one, is the block's and can be armed. -/
theorem usbFlushEffect : Obligations.UsbFlushEffect := by
  intro s hinv
  have hflush := flush_eq hinv.fillOwned
  refine ⟨fun h0 => ?empty, fun hf => ?filled⟩
  case empty =>
    change andThen (flush s) _ = _
    rw [hflush, if_neg (by omega), ← h0]
    rfl
  case filled =>
    change andThen (flush s) _ = _
    rw [hflush, if_pos hf]
    rfl

/-- Settles O23: there is a byte to take, or nothing but the free byte's count changes. -/
theorem usbGetEffect : Obligations.UsbGetEffect := by
  refine fun s hinv => ⟨fun h => ⟨_, execUsbGet_of_empty h⟩, fun hc ho hpos => ?_⟩
  refine (execUsbGet_of_data hinv (State.outHasData_eq_true.mpr ⟨hc, ho, hpos⟩)).trans ?_
  unfold byteTaken
  split <;> rfl

/-! ### The poll -/

section
variable {s : State}

theorem serviceSie_of_empty (h : s.sie.queue = []) : serviceSie s = .next s := by
  unfold serviceSie
  rw [h]

/-- Once its event is handled a poll completes: the bulk steps arm what the block owns. -/
theorem execUsbPoll_completes_of_event (hinv : s.Inv) (h : Completes (serviceSie s)) : Completes (execUsbPoll s) := by
  obtain ⟨u, hu⟩ := h
  obtain ⟨v, hv⟩ := bulkOutZeroLength_completes u
  have hvi : v.Inv := (bulkOutZeroLength_act hv).inv (hinv.serviceSie hu)
  obtain ⟨w, hw⟩ := hvi.idleStep_completes
  exact ⟨_, execUsbPoll_eq_next.mpr ⟨u, v, w, hu, hv, hw, rfl⟩⟩

/-- An IN completion needs the IN buffer only for a packet that is to follow (40_usb_control.md R230, R231). -/
theorem handleEp0In_completes_of_packet
    (h : ∀ x, s.ctl.pendingAddr = none → s.ctl.xfer = some x → 0 < x.rem ∨ x.zlpDue = true →
      (s.bd .ep0in).own = .sw) : Completes (handleEp0In s) := by
  cases ha : s.ctl.pendingAddr with
  | some a => exact ⟨_, handleEp0In_of_address ha⟩
  | none =>
    cases hx : s.ctl.xfer with
    | none => exact ⟨_, handleEp0In_of_none ha hx⟩
    | some x =>
      rw [handleEp0In_of_transfer ha hx]
      by_cases hp : 0 < x.rem ∨ x.zlpDue = true
      · exact continueIn_completes (h x ha hx hp) x
      · obtain ⟨hr, hz⟩ := not_or.mp hp
        exact ⟨_, continueIn_of_end (by omega) (by simpa using hz)⟩

end

/-- Settles O26: one case for each kind of event; the bulk steps after it complete. -/
theorem usbPollCompletes : Obligations.UsbPollCompletes := by
  intro s hinv hin hout hreset
  refine execUsbPoll_completes_of_event hinv ?_
  cases hq : s.sie.queue with
  | nil => exact ⟨s, serviceSie_of_empty hq⟩
  | cons ev q =>
    rw [serviceSie_of_queue hq]
    cases ev with
    | busReset =>
      obtain ⟨hi, ho⟩ := hreset q hq
      exact ⟨_, handleBusReset_eq_next.mpr ⟨hi, ho, rfl⟩⟩
    | doneEp0out =>
      obtain ⟨ho, hi⟩ := hout q hq
      exact handleEp0Out_completes (s := s.withQueue q) ho hi
    | doneEp0in => exact handleEp0In_completes_of_packet (s := s.withQueue q) fun x => hin q x hq
    | doneBin k => exact ⟨_, rfl⟩
    | doneBout k => exact ⟨_, rfl⟩

/-! ### The bulk steps of a poll -/

section
variable {s : State}

/-- An empty packet has been received in the active bulk-OUT buffer (R312). -/
abbrev State.EmptyPacket (s : State) : Prop := s.dev.config ≠ 0 ∧ s.bd (.bout s.bout.active) = ⟨.sw, 0⟩

/-- The state after the zero-length step (R312). -/
def emptyPassed (s : State) : State :=
  { s with
    bds := if s.EmptyPacket then s.bds.set (.bout s.bout.active) ⟨.sie, s.cfg.bulkSize.val⟩ else s.bds
    bout := if s.EmptyPacket then ⟨1 - s.bout.active, 0⟩ else s.bout }

theorem State.emptyPacket_iff : s.EmptyPacket ↔
    s.configured = true ∧ (s.bd (.bout s.bout.active)).own = .sw ∧ (s.bd (.bout s.bout.active)).count = 0 := by
  rw [State.configured, bne_iff_ne, State.EmptyPacket]
  generalize s.bd (.bout s.bout.active) = d
  cases d
  simp

theorem bulkOutZeroLength_eq (s : State) : bulkOutZeroLength s = .next (emptyPassed s) := by
  rw [bulkOutZeroLength_eq_next]
  unfold emptyPassed
  by_cases h : s.EmptyPacket
  · rw [if_pos h, if_pos h, if_pos (State.emptyPacket_iff.mp h)]
    rfl
  · rw [if_neg h, if_neg h, if_neg (mt State.emptyPacket_iff.mpr h)]

/-- A poll reaches the threshold with bytes unflushed (R304). -/
abbrev State.FlushDue (s : State) : Prop := 0 < s.bin.fill ∧ s.cfg.idleFlushPolls.val ≤ s.bin.idle + 1

/-- The state after the idle step (R304). -/
def idled (s : State) : State :=
  { s with
    bds := if s.FlushDue then s.bds.set (.bin s.bin.active) ⟨.sie, s.bin.fill⟩ else s.bds
    bin := if s.FlushDue then ⟨1 - s.bin.active, 0, 0⟩
      else if 0 < s.bin.fill then ⟨s.bin.active, s.bin.fill, s.bin.idle + 1⟩ else ⟨s.bin.active, 0, 0⟩ }

theorem State.Inv.idleStep_eq (h : s.Inv) : idleStep s = .next (idled s) := by
  rw [idleStep_eq_next]
  unfold idled
  by_cases hf : 0 < s.bin.fill
  · by_cases hi : s.cfg.idleFlushPolls.val ≤ s.bin.idle + 1
    · refine .inr (.inr ⟨hf, hi, h.fillOwned hf, ?_⟩)
      rw [if_pos ⟨hf, hi⟩, if_pos ⟨hf, hi⟩]
      rfl
    · refine .inr (.inl ⟨hf, Nat.not_le.mp hi, ?_⟩)
      rw [if_neg fun h => hi h.2, if_neg fun h => hi h.2, if_pos hf]
  · have h0 : s.bin.fill = 0 := by omega
    refine .inl ⟨h0, ?_⟩
    rw [if_neg fun h => hf h.1, if_neg fun h => hf h.1, if_neg hf]
    simp only [h0]

/-- A poll whose event is taken and no more: the two bulk steps are done (R320). -/
theorem execUsbPoll_of_taken {q : List SieEvent} (h : s.Inv)
    (hservice : serviceSie s = .next (s.withQueue q)) :
    execUsbPoll s = .next (respond .ok [] (idled (emptyPassed (s.withQueue q)))) := by
  have hpassed := bulkOutZeroLength_eq (s.withQueue q)
  have hinv : (emptyPassed (s.withQueue q)).Inv := (bulkOutZeroLength_act hpassed).inv (h.withQueue q)
  exact execUsbPoll_eq_next.mpr ⟨_, _, _, hservice, hpassed, hinv.idleStep_eq, rfl⟩

theorem serviceSie_of_bulkEvent {q : List SieEvent}
    (h : (s.sie.queue = [] ∧ q = []) ∨ ∃ k, s.sie.queue = .doneBin k :: q ∨ s.sie.queue = .doneBout k :: q) :
    serviceSie s = .next (s.withQueue q) := by
  rcases h with ⟨hq, rfl⟩ | ⟨k, hq | hq⟩
  · rw [serviceSie_of_empty hq, State.withQueue, ← hq]
  · rw [serviceSie_of_queue hq]
    rfl
  · rw [serviceSie_of_queue hq]
    rfl

end

/-- Settles O27: the event of a bulk transaction is taken and nothing else is done for it. -/
theorem usbPollWithoutControlEvent : Obligations.UsbPollWithoutControlEvent :=
  fun _ _ hinv hq => execUsbPoll_of_taken hinv (serviceSie_of_bulkEvent hq)

/-! ### Runs of polls (R305) -/

section
variable {s : State}

theorem emptyPassed_bdBin (s : State) (k : Fin 2) : (emptyPassed s).bd (.bin k) = s.bd (.bin k) := by
  rw [State.bd_eq, emptyPassed]
  split
  · exact Bds.get_set_other _ _ nofun
  · rfl

theorem idled_of_count (hf : 0 < s.bin.fill) (hi : s.bin.idle + 1 < s.cfg.idleFlushPolls.val) :
    idled s = { s with bin := ⟨s.bin.active, s.bin.fill, s.bin.idle + 1⟩ } := by
  have hdue : ¬ s.FlushDue := fun h => absurd h.2 (by omega)
  rw [idled, if_neg hdue, if_neg hdue, if_pos hf]

theorem idled_of_due (h : s.FlushDue) : idled s = handedOver s := by
  rw [idled, if_pos h, if_pos h]
  rfl

/-- One poll with no event of the SIE's: what it leaves of the queue, the parameters and the invariant. -/
theorem quietPoll (hinv : s.Inv) (hq : s.sie.queue = []) :
    ∃ u : State, execUsbPoll s = .next (respond .ok [] (idled u)) ∧ (idled u).Inv ∧ u.sie.queue = [] ∧
      u.cfg = s.cfg ∧ u.bin = s.bin ∧ ∀ k, u.bd (.bin k) = s.bd (.bin k) := by
  have hpassed := bulkOutZeroLength_eq (s.withQueue [])
  have hinv' : (emptyPassed (s.withQueue [])).Inv := (bulkOutZeroLength_act hpassed).inv (hinv.withQueue [])
  exact ⟨emptyPassed (s.withQueue []), execUsbPoll_of_taken hinv (serviceSie_of_bulkEvent (.inl ⟨hq, rfl⟩)),
    (idleStep_act hinv'.idleStep_eq).inv hinv', rfl, rfl, rfl, emptyPassed_bdBin _⟩

/-- A poll below the threshold is counted and flushes nothing. -/
theorem countingPoll (hinv : s.Inv) (hq : s.sie.queue = []) (hf : 0 < s.bin.fill)
    (hi : s.bin.idle + 1 < s.cfg.idleFlushPolls.val) :
    ∃ t, execUsbPoll s = .next t ∧ t.Inv ∧ t.sie.queue = [] ∧ t.cfg = s.cfg ∧
      t.bin = ⟨s.bin.active, s.bin.fill, s.bin.idle + 1⟩ ∧ ∀ k, t.bd (.bin k) = s.bd (.bin k) := by
  obtain ⟨u, hpoll, hinv', huq, hcfg, hbin, hbd⟩ := quietPoll hinv hq
  have hu : idled u = { u with bin := ⟨s.bin.active, s.bin.fill, s.bin.idle + 1⟩ } := by
    rw [← hbin]
    exact idled_of_count (by rwa [hbin]) (by rwa [hbin, hcfg])
  rw [hu] at hpoll hinv'
  exact ⟨_, hpoll, hinv'.respond _ _, huq, hcfg, rfl, hbd⟩

/-- The poll that reaches the threshold hands the active buffer over. -/
theorem flushingPoll (hinv : s.Inv) (hq : s.sie.queue = []) (h : s.FlushDue) :
    ∃ t, execUsbPoll s = .next t ∧ t.bin = ⟨1 - s.bin.active, 0, 0⟩ ∧
      t.bd (.bin s.bin.active) = ⟨.sie, s.bin.fill⟩ ∧
      t.bd (.bin (1 - s.bin.active)) = s.bd (.bin (1 - s.bin.active)) := by
  obtain ⟨u, hpoll, -, -, hcfg, hbin, hbd⟩ := quietPoll hinv hq
  have hdue : u.FlushDue := by rwa [State.FlushDue, hbin, hcfg]
  rw [idled_of_due hdue] at hpoll
  refine ⟨_, hpoll, by rw [← hbin]; rfl, ?_, ?_⟩
  · rw [← hbin]
    exact State.bd_setBd_same u _ _
  · rw [← hbd, ← hbin]
    exact State.bd_setBd_other u _ (by simpa using other_ne _)

theorem polls_below_threshold : ∀ (n : Nat) {s : State}, s.Inv → 0 < s.bin.fill → s.sie.queue = [] →
    s.bin.idle + n < s.cfg.idleFlushPolls.val →
    ∃ t, polls n s = .next t ∧ t.bin = ⟨s.bin.active, s.bin.fill, s.bin.idle + n⟩ ∧
      ∀ k, t.bd (.bin k) = s.bd (.bin k)
  | 0, s, _, _, _, _ => ⟨s, rfl, rfl, fun _ => rfl⟩
  | n + 1, s, hinv, hf, hq, hn => by
    obtain ⟨u, hpoll, huinv, huq, hcfg, hbin, hbd⟩ := countingPoll hinv hq hf (by omega)
    obtain ⟨t, ht, htbin, htbd⟩ := polls_below_threshold n huinv (by rwa [hbin]) huq (by simp only [hbin, hcfg]; omega)
    refine ⟨t, by rw [polls, hpoll, andThen_next, ht], ?_, fun k => (htbd k).trans (hbd k)⟩
    rw [htbin, hbin, Nat.add_right_comm, Nat.add_assoc]

theorem polls_at_threshold : ∀ (n : Nat) {s : State}, s.Inv → 0 < s.bin.fill → s.sie.queue = [] →
    s.bin.idle + n = s.cfg.idleFlushPolls.val →
    ∃ t, polls n s = .next t ∧ t.bin = ⟨1 - s.bin.active, 0, 0⟩ ∧
      t.bd (.bin s.bin.active) = ⟨.sie, s.bin.fill⟩ ∧
      t.bd (.bin (1 - s.bin.active)) = s.bd (.bin (1 - s.bin.active))
  | 0, _, hinv, _, _, hn => absurd hinv.idle (by omega)
  | 1, s, hinv, hf, hq, hn => by
    obtain ⟨t, hpoll, ht⟩ := flushingPoll hinv hq ⟨hf, by omega⟩
    exact ⟨t, by rw [polls, hpoll]; rfl, ht⟩
  | n + 2, s, hinv, hf, hq, hn => by
    obtain ⟨u, hpoll, huinv, huq, hcfg, hbin, hbd⟩ := countingPoll hinv hq hf (by omega)
    obtain ⟨t, ht, htbin, hactive, hother⟩ :=
      polls_at_threshold (n + 1) huinv (by rwa [hbin]) huq (by simp only [hbin, hcfg]; omega)
    rw [hbin] at htbin hactive hother
    exact ⟨t, by rw [polls, hpoll, andThen_next, ht], htbin, hactive, hother.trans (hbd _)⟩

end

/-- Settles O28, by induction on the number of polls: each below the threshold only counts. -/
theorem idleFlushComesAtTheThreshold : Obligations.IdleFlushComesAtTheThreshold :=
  fun _ hinv hf hq =>
    ⟨fun n hn => polls_below_threshold n hinv hf hq hn, fun n hn => polls_at_threshold n hinv hf hq hn⟩

end Sys2Proof.Machine
end

section
/-! PROOF. The bulk queues are first in, first out (O24, O25). The bytes that wait are read off the managers' and the
SIE's pointers; handing a buffer over or taking one back moves a pointer past bytes that it does not change, and the
alternation says that the two pointers pass over the buffers in the same order. -/

namespace Sys2Proof.Machine

/-! ### The bytes of one buffer -/

section
variable {s t : State}

theorem armedIn_of_sie {k : Fin 2} (h : (s.bd (.bin k)).own = .sie) : s.armedIn k = s.armedBytes (.bin k) := if_pos h

theorem armedIn_of_sw {k : Fin 2} (h : (s.bd (.bin k)).own = .sw) : s.armedIn k = [] := if_neg (by rw [h]; nofun)

theorem heldOut_of_sw {k : Fin 2} (h : (s.bd (.bout k)).own = .sw) (off : Nat) :
    s.heldOut k off = s.mem.readList ((Buf.bout k).base + off) ((s.bd (.bout k)).count - off) := if_pos h

theorem heldOut_of_sie {k : Fin 2} (h : (s.bd (.bout k)).own = .sie) (off : Nat) : s.heldOut k off = [] :=
  if_neg (by rw [h]; nofun)

/-- Where the block holds nothing but what it has read, nothing is unread. -/
theorem heldOut_of_count_le {k : Fin 2} {off : Nat} (h : (s.bd (.bout k)).count ≤ off) : s.heldOut k off = [] := by
  rw [State.heldOut, Nat.sub_eq_zero_of_le h]
  exact ite_self []

theorem armedIn_congr {k : Fin 2} (hbd : t.bd (.bin k) = s.bd (.bin k)) (hm : t.mem = s.mem) :
    t.armedIn k = s.armedIn k := by
  simp only [State.armedIn, State.armedBytes, hbd, hm]

theorem heldOut_congr {k : Fin 2} (hbd : t.bd (.bout k) = s.bd (.bout k)) (hm : t.mem = s.mem) (off : Nat) :
    t.heldOut k off = s.heldOut k off := by
  simp only [State.heldOut, hbd, hm]

/-- The bytes of a buffer from an offset on are the same where each of them is. -/
theorem readList_of_byteAt {b : Buf} (h : ∀ off < 64, t.byteAt b off = s.byteAt b off) {off n : Nat}
    (hn : off + n ≤ 64) : t.mem.readList (b.base + off) n = s.mem.readList (b.base + off) n := by
  refine Memory.readList_congr _ _ fun y hlo hhi => ?_
  obtain ⟨d, rfl⟩ := Nat.exists_eq_add_of_le hlo
  rw [Nat.add_assoc]
  exact h (off + d) (by omega)

theorem readList_base_of_byteAt {b : Buf} (h : ∀ off < 64, t.byteAt b off = s.byteAt b off) {n : Nat}
    (hn : n ≤ 64) : t.mem.readList b.base n = s.mem.readList b.base n :=
  readList_of_byteAt h (off := 0) (by omega)

theorem Spares.armedIn {k : Fin 2} (h : Spares s t (.bin k)) (hc : (s.bd (.bin k)).count ≤ 64) :
    t.armedIn k = s.armedIn k := by
  obtain ⟨hbd, hbyte⟩ := h
  simp only [State.armedIn, State.armedBytes, hbd]
  rw [readList_base_of_byteAt hbyte hc]

theorem Spares.heldOut {k : Fin 2} (h : Spares s t (.bout k)) (hc : (s.bd (.bout k)).count ≤ 64) {off : Nat}
    (hoff : off ≤ 64) : t.heldOut k off = s.heldOut k off := by
  obtain ⟨hbd, hbyte⟩ := h
  simp only [State.heldOut, hbd]
  rw [readList_of_byteAt hbyte (by omega)]

/-! ### What leaves a queue as it is -/

theorem State.Inv.count_le (h : s.Inv) (b : Buf) : (s.bd b).count ≤ 64 := (h.count b).trans (b.size_le s.cfg)

theorem State.Inv.pos_le (h : s.Inv) : s.bout.pos ≤ 64 := by
  rcases Nat.eq_zero_or_pos s.bout.pos with h0 | hp
  · omega
  · exact (h.unread hp).2.le.trans (h.count_le _)

/-- The bulk-IN endpoint, with the bytes of its buffers, is as it was. -/
structure SameIn (s t : State) : Prop where
  bin : t.bin = s.bin
  nextIn : t.sie.nextIn = s.sie.nextIn
  spares : ∀ k, Spares s t (.bin k)

/-- The bulk-OUT endpoint, with the bytes of its buffers, is as it was. -/
structure SameOut (s t : State) : Prop where
  bout : t.bout = s.bout
  spares : ∀ k, Spares s t (.bout k)

theorem SameIn.waitingIn (h : SameIn s t) (hinv : s.Inv) : t.waitingIn = s.waitingIn := by
  have harmed k : t.armedIn k = s.armedIn k := (h.spares k).armedIn (hinv.count_le _)
  have hfill : s.bin.fill ≤ 64 := hinv.fill.le.trans s.cfg.bulkSize.property.2
  rw [State.waitingIn, State.waitingIn, h.nextIn, h.bin, harmed, harmed,
    readList_base_of_byteAt (h.spares s.bin.active).2 hfill]

theorem SameOut.unreadOut (h : SameOut s t) (hinv : s.Inv) : t.unreadOut = s.unreadOut := by
  have hheld k {off : Nat} (hoff : off ≤ 64) : t.heldOut k off = s.heldOut k off :=
    (h.spares k).heldOut (hinv.count_le _) hoff
  rw [State.unreadOut, State.unreadOut, h.bout, hheld _ hinv.pos_le, hheld _ (Nat.zero_le _)]

/-- Both bulk endpoints, with the bytes of their buffers, are as they were. -/
structure SameQueues (s t : State) : Prop where
  bulk : SameBulk s t
  byteIn : ∀ k, ∀ off < 64, t.byteAt (.bin k) off = s.byteAt (.bin k) off
  byteOut : ∀ k, ∀ off < 64, t.byteAt (.bout k) off = s.byteAt (.bout k) off

theorem SameQueues.sameIn (h : SameQueues s t) : SameIn s t :=
  ⟨h.bulk.bin, h.bulk.nextIn, fun k => ⟨h.bulk.bdBin k, h.byteIn k⟩⟩

theorem SameQueues.sameOut (h : SameQueues s t) : SameOut s t := ⟨h.bulk.bout, fun k => ⟨h.bulk.bdBout k, h.byteOut k⟩⟩

theorem SameQueues.trans {u : State} (h : SameQueues s t) (k : SameQueues t u) : SameQueues s u where
  bulk := h.bulk.trans k.bulk
  byteIn j off ho := (k.byteIn j off ho).trans (h.byteIn j off ho)
  byteOut j off ho := (k.byteOut j off ho).trans (h.byteOut j off ho)

theorem SameQueues.of_mem (h : SameBulk s t) (hm : t.mem = s.mem) : SameQueues s t :=
  ⟨h, fun _ _ _ => by rw [State.byteAt, hm]; rfl, fun _ _ _ => by rw [State.byteAt, hm]; rfl⟩

/-- Bytes stored in another buffer are none of the queues'. -/
theorem SameQueues.of_stored (h : SameBulk s t) (hwf : s.mem.wf = true) {c : Buf} {vs : List Byte}
    (hin : ∀ k, Buf.bin k ≠ c) (hout : ∀ k, Buf.bout k ≠ c) (hlen : vs.length ≤ 64)
    (hm : t.mem = s.mem.writeList c.base vs) : SameQueues s t where
  bulk := h
  byteIn k off ho := by rw [State.byteAt, hm]; exact Memory.read_writeList_buffer hwf (hin k) hlen ho
  byteOut k off ho := by rw [State.byteAt, hm]; exact Memory.read_writeList_buffer hwf (hout k) hlen ho

/-- Work on endpoint 0 leaves each of the bulk descriptors and pointers as it was. -/
theorem SameBulk.of_fields (hbin : t.bin = s.bin) (hbout : t.bout = s.bout) (hnextIn : t.sie.nextIn = s.sie.nextIn)
    (hnextOut : t.sie.nextOut = s.sie.nextOut) (hin0 : t.bds.bin0 = s.bds.bin0) (hin1 : t.bds.bin1 = s.bds.bin1)
    (hout0 : t.bds.bout0 = s.bds.bout0) (hout1 : t.bds.bout1 = s.bds.bout1)
    (hreset : .busReset ∈ s.sie.queue → .busReset ∈ t.sie.queue) : SameBulk s t where
  bin := hbin
  bout := hbout
  nextIn := hnextIn
  nextOut := hnextOut
  bdBin k := match k with
    | 0 => hin0
    | 1 => hin1
  bdBout k := match k with
    | 0 => hout0
    | 1 => hout1
  reset := hreset

theorem SameBulk.chunkSent (x : Xfer) : SameBulk s (chunkSent x s) := .of_fields rfl rfl rfl rfl rfl rfl rfl rfl id

theorem SameQueues.chunkSent (hwf : s.mem.wf = true) (x : Xfer) : SameQueues s (chunkSent x s) :=
  .of_stored (c := .ep0in) (.chunkSent x) hwf (fun _ => nofun) (fun _ => nofun)
    ((length_chunkBytes_le s.cfg x).trans ((Nat.min_le_left _ _).trans (ep0Size_bytes_le _))) rfl

/-- The bytes that wait in each direction are as they were. -/
structure SameBytes (s t : State) : Prop where
  in_ : t.waitingIn = s.waitingIn
  out : t.unreadOut = s.unreadOut

theorem SameBytes.trans {u : State} (h : SameBytes s t) (k : SameBytes t u) : SameBytes s u :=
  ⟨k.in_.trans h.in_, k.out.trans h.out⟩

theorem SameQueues.sameBytes (h : SameQueues s t) (hinv : s.Inv) : SameBytes s t :=
  ⟨h.sameIn.waitingIn hinv, h.sameOut.unreadOut hinv⟩

/-- Where memory is as it was, nothing need be known of the counts. -/
theorem SameBulk.sameBytes (h : SameBulk s t) (hm : t.mem = s.mem) : SameBytes s t := by
  have harmed k : t.armedIn k = s.armedIn k := armedIn_congr (h.bdBin k) hm
  have hheld k off : t.heldOut k off = s.heldOut k off := heldOut_congr (h.bdBout k) hm off
  constructor
  · rw [State.waitingIn, State.waitingIn, h.nextIn, h.bin, hm, harmed, harmed]
  · rw [State.unreadOut, State.unreadOut, h.bout, hheld, hheld]

end

/-! ### The acts of the bulk manager -/

section
variable {s : State}

/-- While the block fills a buffer, the SIE's other one is all that goes first. -/
theorem waitingIn_of_filling (ho : (s.bd (.bin s.bin.active)).own = .sw) :
    s.waitingIn = s.armedIn (1 - s.bin.active) ++ s.mem.readList (Buf.bin s.bin.active).base s.bin.fill := by
  have hactive := armedIn_of_sw ho
  have hnext : s.sie.nextIn = s.bin.active ∨ s.sie.nextIn = 1 - s.bin.active := by omega
  rcases hnext with hn | hn
  · rw [State.waitingIn, hn, hactive, List.nil_append]
  · rw [State.waitingIn, hn, other_other, hactive, List.append_nil]

/-- With the alternation the buffer that is handed over is the last to go. -/
theorem handedOver_waitingIn (hp : s.PingPong) (ho : (s.bd (.bin s.bin.active)).own = .sw) :
    (handedOver s).waitingIn = s.waitingIn := by
  obtain ⟨⟨-, hdiff⟩, -⟩ := hp
  have hbd : (handedOver s).bd (.bin s.bin.active) = ⟨.sie, s.bin.fill⟩ := State.bd_setBd_same s _ _
  have hactive : (handedOver s).armedIn s.bin.active = s.mem.readList (Buf.bin s.bin.active).base s.bin.fill := by
    rw [armedIn_of_sie (by rw [hbd]), State.armedBytes, hbd]
    rfl
  have hother : (handedOver s).armedIn (1 - s.bin.active) = s.armedIn (1 - s.bin.active) :=
    armedIn_congr (State.bd_setBd_other s _ (by simpa using other_ne _)) rfl
  have hafter : (handedOver s).waitingIn =
      (handedOver s).armedIn s.sie.nextIn ++ (handedOver s).armedIn (1 - s.sie.nextIn) := List.append_nil _
  rw [waitingIn_of_filling ho, hafter]
  by_cases hsw : (s.bd (.bin (1 - s.bin.active))).own = .sw
  · have hnone := hother.trans (armedIn_of_sw hsw)
    have hnext : s.sie.nextIn = s.bin.active ∨ s.sie.nextIn = 1 - s.bin.active := by omega
    rw [armedIn_of_sw hsw]
    rcases hnext with hn | hn
    · rw [hn, hactive, hnone, List.append_nil, List.nil_append]
    · rw [hn, other_other, hactive, hnone]
  · obtain ⟨-, hn⟩ := hdiff fun he => hsw (he.symm.trans ho)
    rw [hn, other_other, hactive, hother]

theorem appended_waitingIn (hinv : s.Inv) (ho : (s.bd (.bin s.bin.active)).own = .sw) (b : Byte) :
    (appended b s).waitingIn = s.waitingIn ++ [b] := by
  have hother : (appended b s).armedIn (1 - s.bin.active) = s.armedIn (1 - s.bin.active) :=
    (appended_spares hinv.memory b (by simpa using other_ne _) hinv.fill).armedIn (hinv.count_le _)
  have hold : (appended b s).mem.readList (Buf.bin s.bin.active).base s.bin.fill =
      s.mem.readList (Buf.bin s.bin.active).base s.bin.fill :=
    Memory.readList_congr _ _ fun y _ hy => Memory.read_write_other _ _ _ (by omega) hinv.memory
  have hnew : (appended b s).mem.readList ((Buf.bin s.bin.active).base + s.bin.fill) 1 = [b] :=
    congrArg (· :: []) (Memory.read_write_same _ _ hinv.memory)
  have hafter : (appended b s).waitingIn = (appended b s).armedIn (1 - s.bin.active) ++
      (appended b s).mem.readList (Buf.bin s.bin.active).base (s.bin.fill + 1) := waitingIn_of_filling ho
  rw [hafter, waitingIn_of_filling ho, Memory.readList_append, hother, hold, hnew, List.append_assoc]

theorem bytePut_waitingIn (hinv : s.Inv) (hp : s.PingPong) (ho : (s.bd (.bin s.bin.active)).own = .sw) (b : Byte) :
    (bytePut b s).waitingIn = s.waitingIn ++ [b] := by
  unfold bytePut
  split
  · rw [handedOver_waitingIn (s := appended b s) hp ho, appended_waitingIn hinv ho]
  · exact appended_waitingIn hinv ho b

theorem handedOver_sameOut (s : State) : SameOut s (handedOver s) := ⟨rfl, fun _ => handedOver_spares nofun⟩

theorem bytePut_sameOut (hinv : s.Inv) (b : Byte) : SameOut s (bytePut b s) := by
  have happended k : Spares s (appended b s) (.bout k) := appended_spares hinv.memory b nofun hinv.fill
  unfold bytePut
  split
  · exact ⟨rfl, fun k => (happended k).trans ((handedOver_sameOut _).spares k)⟩
  · exact ⟨rfl, happended⟩

theorem passedOn_spares {b : Buf} (hb : b ≠ .bout s.bout.active) : Spares s (passedOn s) b :=
  spares_giveBack hb rfl rfl

theorem passedOn_sameIn (s : State) : SameIn s (passedOn s) := ⟨rfl, rfl, fun _ => passedOn_spares nofun⟩

/-- The buffer that is passed on leaves the queue, and the other is all that is left. -/
theorem passedOn_unreadOut (s : State) : (passedOn s).unreadOut = s.heldOut (1 - s.bout.active) 0 := by
  have hactive : (passedOn s).heldOut (1 - (1 - s.bout.active)) 0 = [] := by
    rw [other_other]
    exact heldOut_of_sie (by rw [show (passedOn s).bd _ = _ from State.bd_setBd_same s _ _]) 0
  have hother : (passedOn s).heldOut (1 - s.bout.active) 0 = s.heldOut (1 - s.bout.active) 0 :=
    heldOut_congr (passedOn_spares (by simpa using other_ne _)).1 rfl 0
  have hafter : (passedOn s).unreadOut =
      (passedOn s).heldOut (1 - s.bout.active) 0 ++ (passedOn s).heldOut (1 - (1 - s.bout.active)) 0 := rfl
  rw [hafter, hactive, List.append_nil, hother]

/-- The byte that USB_GET takes is the front of the queue. -/
theorem byteTaken_unreadOut (h : s.outHasData = true) :
    s.unreadOut = s.byteAt (.bout s.bout.active) s.bout.pos :: (byteTaken s).unreadOut := by
  obtain ⟨-, ho, hpos⟩ := State.outHasData_eq_true.mp h
  have hfront : s.heldOut s.bout.active s.bout.pos =
      s.byteAt (.bout s.bout.active) s.bout.pos :: s.heldOut s.bout.active (s.bout.pos + 1) := by
    rw [heldOut_of_sw ho, heldOut_of_sw ho, show (s.bd (.bout s.bout.active)).count - s.bout.pos =
      (s.bd (.bout s.bout.active)).count - (s.bout.pos + 1) + 1 by omega]
    rfl
  rw [State.unreadOut, hfront, List.cons_append]
  unfold byteTaken
  split
  · next hlast => rw [passedOn_unreadOut, heldOut_of_count_le hlast.ge, List.nil_append]
  · rfl

theorem byteTaken_sameIn (s : State) : SameIn s (byteTaken s) := by
  unfold byteTaken
  split
  · exact passedOn_sameIn s
  · exact ⟨rfl, rfl, fun _ => .of_eq rfl rfl⟩

/-! ### The transactions of the SIE -/

theorem bulkInSent_spares {b : Buf} (hb : b ≠ .bin s.sie.nextIn) : Spares s (bulkInSent s) b :=
  spares_giveBack hb rfl rfl

/-- The SIE's next buffer, when it is armed, is the front of the queue. -/
theorem bulkInSent_waitingIn (ho : (s.bd (.bin s.sie.nextIn)).own = .sie) :
    s.waitingIn = s.armedBytes (.bin s.sie.nextIn) ++ (bulkInSent s).waitingIn := by
  have hsent : (bulkInSent s).armedIn (1 - (1 - s.sie.nextIn)) = [] := by
    rw [other_other]
    exact armedIn_of_sw (by rw [show (bulkInSent s).bd _ = _ from State.bd_setBd_same s _ _])
  have hother : (bulkInSent s).armedIn (1 - s.sie.nextIn) = s.armedIn (1 - s.sie.nextIn) :=
    armedIn_congr (bulkInSent_spares (by simpa using other_ne _)).1 rfl
  have hafter : (bulkInSent s).waitingIn = (bulkInSent s).armedIn (1 - s.sie.nextIn) ++
      (bulkInSent s).armedIn (1 - (1 - s.sie.nextIn)) ++
        s.mem.readList (Buf.bin s.bin.active).base s.bin.fill := rfl
  rw [hafter, hsent, hother, List.append_nil, State.waitingIn, armedIn_of_sie ho, List.append_assoc]

theorem bulkInSent_sameOut (s : State) : SameOut s (bulkInSent s) := ⟨rfl, fun _ => bulkInSent_spares nofun⟩

theorem bulkOutReceived_spares (hinv : s.Inv) {data : List Byte} (hl : data.length ≤ s.cfg.bulkSize.val) {b : Buf}
    (hb : b ≠ .bout s.sie.nextOut) : Spares s (bulkOutReceived data s) b :=
  spares_deliver hinv.memory hb rfl rfl (hl.trans s.cfg.bulkSize.property.2)

theorem bulkOutReceived_sameIn (hinv : s.Inv) {data : List Byte} (hl : data.length ≤ s.cfg.bulkSize.val) :
    SameIn s (bulkOutReceived data s) :=
  ⟨rfl, rfl, fun _ => bulkOutReceived_spares hinv hl nofun⟩

/-- With the alternation the buffer that the SIE fills is the last to be read. -/
theorem bulkOutReceived_unreadOut (hinv : s.Inv) (hp : s.PingPong) {data : List Byte}
    (ho : (s.bd (.bout s.sie.nextOut)).own = .sie) (hl : data.length ≤ s.cfg.bulkSize.val) :
    (bulkOutReceived data s).unreadOut = s.unreadOut ++ data := by
  obtain ⟨-, hsame, hdiff⟩ := hp
  have hbd : (bulkOutReceived data s).bd (.bout s.sie.nextOut) = ⟨.sw, data.length⟩ := State.bd_setBd_same s _ _
  have hnew : (bulkOutReceived data s).heldOut s.sie.nextOut 0 = data := by
    rw [heldOut_of_sw (by rw [hbd]), hbd]
    exact Memory.readList_writeList_same _ _ hinv.memory
  have hother {k : Fin 2} (hk : k ≠ s.sie.nextOut) {off : Nat} (hoff : off ≤ 64) :
      (bulkOutReceived data s).heldOut k off = s.heldOut k off :=
    (bulkOutReceived_spares hinv hl (by simpa using hk)).heldOut (hinv.count_le _) hoff
  have hafter : (bulkOutReceived data s).unreadOut = (bulkOutReceived data s).heldOut s.bout.active s.bout.pos ++
      (bulkOutReceived data s).heldOut (1 - s.bout.active) 0 := rfl
  rw [hafter, State.unreadOut]
  by_cases heq : (s.bd (.bout s.bout.active)).own = (s.bd (.bout (1 - s.bout.active))).own
  · have hn := hsame heq
    have hsie : (s.bd (.bout s.bout.active)).own = .sie := by rwa [← hn]
    have hpos : s.bout.pos = 0 := by
      by_contra hne
      exact State.ne_of_own (hinv.unread (Nat.pos_of_ne_zero hne)).1 hsie rfl
    have hnone := heldOut_of_sie (heq.symm.trans hsie) 0
    rw [hother (by rw [hn]; exact other_ne _) (Nat.zero_le _), hnone, heldOut_of_sie hsie, hpos, ← hn, hnew]
    simp
  · obtain ⟨-, hn⟩ := hdiff heq
    rw [hn] at ho hnew
    rw [hother (by rw [hn]; exact (other_ne _).symm) hinv.pos_le, hnew, heldOut_of_sie ho, List.append_nil]

/-- A token on the bulk-IN endpoint takes from the queue what is answered. -/
theorem sieBulkIn_of_data {toggle : Bool} {bytes : List Byte} (h : (sieBulkIn s).answer = some (.data toggle bytes)) :
    s.waitingIn = bytes ++ (sieBulkIn s).waitingIn := by
  rcases sieBulkIn_cases s with ⟨-, a, ha, hs⟩ | ⟨-, ho, hs⟩
  · rw [hs] at h
    rcases ha with rfl | rfl <;> cases h
  · rw [hs] at h ⊢
    cases h
    exact bulkInSent_waitingIn ho

theorem sieBulkIn_of_no_data (h : ∀ toggle bytes, (sieBulkIn s).answer ≠ some (.data toggle bytes)) :
    (sieBulkIn s).waitingIn = s.waitingIn := by
  rcases sieBulkIn_cases s with ⟨-, a, -, hs⟩ | ⟨-, -, hs⟩
  · rw [hs]
    rfl
  · exact absurd (congrArg State.answer hs) (h _ _)

theorem sieBulkIn_of_armed (hh : s.dev.halt.in_ = false) (ho : (s.bd (.bin s.sie.nextIn)).own = .sie) :
    (sieBulkIn s).answer = some (.data s.sie.toggles.in_ (s.armedBytes (.bin s.sie.nextIn))) := by
  rcases sieBulkIn_cases s with ⟨hnot, -⟩ | ⟨-, -, hs⟩
  · rcases hnot with hhalt | hsw
    · rw [hh] at hhalt
      cases hhalt
    · exact absurd rfl (State.ne_of_own hsw ho)
  · rw [hs]
    rfl

theorem sieBulkIn_sameOut (s : State) : SameOut s (sieBulkIn s) := by
  rcases sieBulkIn_cases s with ⟨-, a, -, hs⟩ | ⟨-, -, hs⟩
  · rw [hs]
    exact ⟨rfl, fun _ => .of_eq rfl rfl⟩
  · rw [hs]
    exact bulkInSent_sameOut s

/-- A token on the bulk-OUT endpoint appends to the queue what is acknowledged. -/
theorem sieBulkOut_of_ack (hinv : s.Inv) (hp : s.PingPong) {data : List Byte}
    (h : (sieBulkOut data s).answer = some .ack) : (sieBulkOut data s).unreadOut = s.unreadOut ++ data := by
  rcases sieBulkOut_cases data s with ⟨a, ha, hs⟩ | ⟨-, ho, hl, hs⟩
  · rw [hs] at h
    exact absurd (Option.some.inj h) ha
  · rw [hs]
    exact bulkOutReceived_unreadOut hinv hp ho hl

theorem sieBulkOut_of_no_ack {data : List Byte} (h : (sieBulkOut data s).answer ≠ some .ack) :
    (sieBulkOut data s).unreadOut = s.unreadOut := by
  rcases sieBulkOut_cases data s with ⟨a, -, hs⟩ | ⟨-, -, -, hs⟩
  · rw [hs]
    rfl
  · exact absurd (congrArg State.answer hs) h

theorem sieBulkOut_sameIn (hinv : s.Inv) (data : List Byte) : SameIn s (sieBulkOut data s) := by
  rcases sieBulkOut_cases data s with ⟨a, -, hs⟩ | ⟨-, -, hl, hs⟩
  · rw [hs]
    exact ⟨rfl, rfl, fun _ => .of_eq rfl rfl⟩
  · rw [hs]
    exact bulkOutReceived_sameIn hinv hl

theorem SameBulk.ep0Sent (s : State) : SameBulk s (ep0Sent s) :=
  .of_fields rfl rfl rfl rfl rfl rfl rfl rfl (List.mem_append_left _)

theorem sieIn0_sameBytes (s : State) : SameBytes s (sieIn0 s) := by
  rcases sieIn0_cases s with ⟨a, -, hs⟩ | ⟨-, -, -, hs⟩
  · rw [hs]
    exact (SameBulk.updates s).sameBytes rfl
  · rw [hs]
    exact (SameBulk.ep0Sent s).sameBytes rfl

theorem SameBulk.ep0Received (data : List Byte) (s : State) : SameBulk s (ep0Received data s) :=
  .of_fields rfl rfl rfl rfl rfl rfl rfl rfl (List.mem_append_left _)

theorem sieOut0_sameBytes (hinv : s.Inv) (data : List Byte) : SameBytes s (sieOut0 data s) := by
  rcases sieOut0_cases data s with ⟨a, -, hs⟩ | ⟨-, -, -, hl, hs⟩
  · rw [hs]
    exact (SameBulk.updates s).sameBytes rfl
  · rw [hs]
    exact (SameQueues.of_stored (c := .ep0out) (.ep0Received data s) hinv.memory (fun _ => nofun) (fun _ => nofun)
      (hl.trans (ep0Size_bytes_le _)) rfl).sameBytes hinv

theorem sieSetup_sameBytes (hinv : s.Inv) (p : Vector Byte 8) : SameBytes s (sieSetup p s) :=
  (SameQueues.of_stored (c := .ep0out) (sieSetup_sameBulk p s) hinv.memory (fun _ => nofun) (fun _ => nofun)
    (by simp) (sieSetup_mem p s)).sameBytes hinv

theorem sieSettle_sameBytes (hr : s.resetWaits = false) : SameBytes s (sieSettle s) := by
  have hbulk : SameBulk s (sieSettle s) :=
    ⟨sieSettle_bin s, sieSettle_bout s, by rw [sieSettle_sie], by rw [sieSettle_sie],
      fun _ => sieSettle_bd_of_bulk hr nofun nofun, fun _ => sieSettle_bd_of_bulk hr nofun nofun,
      by rw [sieSettle_sie]; exact id⟩
  exact hbulk.sameBytes (sieSettle_mem s)

/-! ### The bulk operations and the bulk steps -/

theorem handedOver_sameBytes (hinv : s.Inv) (hp : s.PingPong) (ho : (s.bd (.bin s.bin.active)).own = .sw) :
    SameBytes s (handedOver s) :=
  ⟨handedOver_waitingIn hp ho, (handedOver_sameOut s).unreadOut hinv⟩

/-- What a flush hands over waits as it did (R306). -/
theorem flush_sameBytes (hinv : s.Inv) (hp : s.PingPong) {t : State} (h : flush s = .next t) : SameBytes s t := by
  rcases flush_eq_next.mp h with ⟨-, rfl⟩ | ⟨-, ho, rfl⟩
  · exact ⟨rfl, rfl⟩
  · exact handedOver_sameBytes hinv hp ho

theorem idleStep_sameBytes (hinv : s.Inv) (hp : s.PingPong) {t : State} (h : idleStep s = .next t) :
    SameBytes s t := by
  rcases idleStep_eq_next.mp h with ⟨-, rfl⟩ | ⟨-, -, rfl⟩ | ⟨-, -, ho, rfl⟩
  · exact ⟨rfl, rfl⟩
  · exact ⟨rfl, rfl⟩
  · exact handedOver_sameBytes hinv hp ho

/-- An empty packet has no byte to lose (R312). -/
theorem bulkOutZeroLength_sameBytes (hinv : s.Inv) {t : State} (h : bulkOutZeroLength s = .next t) :
    SameBytes s t := by
  rw [bulkOutZeroLength_eq_next.mp h]
  split
  · next hempty =>
    have hnone : s.heldOut s.bout.active s.bout.pos = [] := heldOut_of_count_le (by omega)
    exact ⟨(passedOn_sameIn s).waitingIn hinv, by rw [passedOn_unreadOut, State.unreadOut, hnone, List.nil_append]⟩
  · exact ⟨rfl, rfl⟩

/-! ### Requests and events -/

/-- A USB control request leaves the queues alone, but for the SET_CONFIGURATION that restarts them (R300). -/
theorem SetupOutcome.sameQueues {t : State} (h : SetupOutcome s t) (hwf : s.mem.wf = true)
    (hpulse : .ppReset ∉ t.pulses) : SameQueues s t := by
  cases h with
  | stalls => exact .of_mem (.updates s) rfl
  | replies data wLength subst ho => exact .chunkSent hwf _
  | acknowledges ho => exact .of_mem (.armedEp0in s) rfl
  | setsHalt e ho => exact .of_mem ((SameBulk.updates s).trans (.armedEp0in _)) rfl
  | clearsHalt e ho => exact .of_mem ((SameBulk.updates s).trans (.armedEp0in _)) rfl
  | setsAddress a ho => exact .of_mem ((SameBulk.updates s).trans (.armedEp0in _)) rfl
  | configures c hc u hu ho =>
    rw [bulkReset_of_value, Host.Outcome.next.injEq] at hu
    subst hu
    exact absurd (List.mem_append_right _ (List.mem_singleton.mpr rfl)) hpulse
  | awaitsLineCoding => exact .of_mem (.updates s) rfl

theorem EventOutcome.sameQueues {t : State} {ev : SieEvent} (h : EventOutcome s ev t) (hev : ev ≠ .busReset)
    (hwf : s.mem.wf = true) (hpulse : .ppReset ∉ t.pulses) : SameQueues s t := by
  cases h with
  | nothing _ _ => exact .of_mem (.updates s) rfl
  | resets => exact absurd rfl hev
  | setup hs u hu =>
    have hstall : SameQueues s (leaveStall s) := .of_mem (.updates s) rfl
    exact (hstall.trans (hu.sameQueues hwf hpulse)).trans (.of_mem (.rearmed u) rfl)
  | lineCoding hl lc => exact .of_mem (.of_fields rfl rfl rfl rfl rfl rfl rfl rfl id) rfl
  | status hl => exact .of_mem (.of_fields rfl rfl rfl rfl rfl rfl rfl rfl id) rfl
  | address a ha => exact .of_mem (.updates s) rfl
  | chunk ha x hx => exact .chunkSent hwf x
  | zeroLength x hx => exact .of_mem (.of_fields rfl rfl rfl rfl rfl rfl rfl rfl id) rfl
  | ends => exact .of_mem (.updates s) rfl

/-- No handling of an event posts or takes another. -/
theorem EventOutcome.queue {t : State} {ev : SieEvent} (h : EventOutcome s ev t) : t.sie.queue = s.sie.queue := by
  cases h with
  | setup hs u hu => exact hu.ep0.1
  | _ => rfl

/-- A poll with no bus reset waiting: the event that it takes leaves the queues alone, and no bus reset waits after
it. -/
theorem serviceSie_sameQueues {t : State} (h : serviceSie s = .next t) (hwf : s.mem.wf = true)
    (hr : s.resetWaits = false) (hpulse : .ppReset ∉ t.pulses) : SameQueues s t ∧ t.resetWaits = false := by
  have hnone : .busReset ∉ s.sie.queue := fun hm => by
    rw [State.resetWaits_eq_true.mpr hm] at hr
    cases hr
  rcases serviceSie_next h with rfl | ⟨ev, q, hq, ho⟩
  · exact ⟨.of_mem (.updates t) rfl, hr⟩
  · rw [hq, List.mem_cons, not_or] at hnone
    obtain ⟨hev, hrest⟩ := hnone
    have htaken : SameQueues s (s.withQueue q) :=
      .of_mem (.of_fields rfl rfl rfl rfl rfl rfl rfl rfl fun hm => absurd (hq ▸ hm) (by simp [hev, hrest])) rfl
    refine ⟨htaken.trans (ho.sameQueues (Ne.symm hev) hwf hpulse), Bool.eq_false_iff.mpr fun hwaits => hrest ?_⟩
    have hm := State.resetWaits_eq_true.mp hwaits
    rwa [ho.queue] at hm

/-- A poll neither loses nor repeats a byte: of its parts only the idle flush moves a buffer with bytes in it. -/
theorem execUsbPoll_sameBytes {t : State} (h : execUsbPoll s = .next t) (hinv : s.Inv) (hp : s.PingPong)
    (hr : s.resetWaits = false) (hpulse : .ppReset ∉ t.pulses) : SameBytes s t ∧ t.resetWaits = false := by
  obtain ⟨u, v, w, hu, hv, hw, rfl⟩ := execUsbPoll_eq_next.mp h
  have hvact := bulkOutZeroLength_act hv
  have hcontrol : SameControl u w := hvact.sameControl.trans (idleStep_act hw).sameControl
  obtain ⟨hsame, hur⟩ := serviceSie_sameQueues hu hinv.memory hr (hcontrol.pulses ▸ hpulse)
  have huinv : u.Inv := hinv.serviceSie hu
  have hvinv : v.Inv := hvact.inv huinv
  have hvp : v.PingPong := hvact.pingPong (hsame.bulk.pingPong hp)
  refine ⟨?bytes, ?reset⟩
  case bytes =>
    have hw : SameBytes s w :=
      ((hsame.sameBytes hinv).trans (bulkOutZeroLength_sameBytes huinv hv)).trans (idleStep_sameBytes hvinv hvp hw)
    exact ⟨hw.in_, hw.out⟩
  case reset =>
    change w.resetWaits = false
    rwa [State.resetWaits, hcontrol.queue]

end

/-! ### The requests of a step -/

section
variable {s t : State}

theorem BusOnly.sameBytes (h : BusOnly s t) : SameBytes s t := h.sameBulk.sameBytes h.mem

theorem execUsbFlush_sameBytes (hinv : s.Inv) (hp : s.PingPong) (h : exec .usbFlush s = .next t) : SameBytes s t := by
  obtain ⟨u, hu, ht⟩ := andThen_eq_next.mp (show andThen (flush s) _ = _ from h)
  cases ht
  exact (flush_sameBytes hinv hp hu).trans ⟨rfl, rfl⟩

/-- Of the operations that a step runs, only USB_PUT and USB_GET change what waits. -/
theorem exec_sameBytes {i : Instr} (hc : i.opClass ≠ .setup) (hput : ∀ b, i ≠ .usbPut b) (hget : i ≠ .usbGet)
    (h : exec i s = .next t) (hinv : s.Inv) (hp : s.PingPong) (hr : s.resetWaits = false)
    (hpulse : .ppReset ∉ t.pulses) : SameBytes s t := by
  by_cases hu : usesUsb i = true
  · cases i with
    | usbPoll => exact (execUsbPoll_sameBytes h hinv hp hr hpulse).1
    | usbReady => cases h; exact ⟨rfl, rfl⟩
    | usbPut b => exact absurd rfl (hput b)
    | usbFlush => exact execUsbFlush_sameBytes hinv hp h
    | usbHasData => cases h; exact ⟨rfl, rfl⟩
    | usbGet => exact absurd rfl hget
    | _ => simp [usesUsb, Instr.opClass] at hu hc
  · exact (exec_busOnly (by simpa using hu) h).sameBytes

theorem exec_resetWaits {i : Instr} (hc : i.opClass ≠ .setup) (h : exec i s = .next t) (hinv : s.Inv)
    (hp : s.PingPong) (hr : s.resetWaits = false) (hpulse : .ppReset ∉ t.pulses) : t.resetWaits = false := by
  by_cases hpoll : i = .usbPoll
  · subst hpoll
    exact (execUsbPoll_sameBytes h hinv hp hr hpulse).2
  · rw [State.resetWaits, (onlyControlWritesControlState i s t hc hpoll h).queue]
    exact hr

theorem execUsbPut_bytes (hinv : s.Inv) (hp : s.PingPong) (b : Byte) (h : exec (.usbPut b) s = .next t) :
    (t.waitingIn = if s.inReady then s.waitingIn ++ [b] else s.waitingIn) ∧ t.unreadOut = s.unreadOut := by
  change execUsbPut b s = _ at h
  cases hready : s.inReady with
  | false =>
    rw [execUsbPut_of_busy hready] at h
    cases h
    exact ⟨rfl, rfl⟩
  | true =>
    rw [execUsbPut_of_ready hinv hready] at h
    cases h
    exact ⟨bytePut_waitingIn hinv hp (State.inReady_eq_true.mp hready).2 b, (bytePut_sameOut hinv b).unreadOut hinv⟩

theorem execUsbGet_bytes_of_data (hinv : s.Inv) (hd : s.outHasData = true) (h : exec .usbGet s = .next t) :
    (∃ b, t.response = some ⟨.ok, [b]⟩ ∧ s.unreadOut = b :: t.unreadOut) ∧ t.waitingIn = s.waitingIn := by
  have hget := execUsbGet_of_data hinv hd
  change execUsbGet s = _ at h
  rw [h, Host.Outcome.next.injEq] at hget
  subst hget
  exact ⟨⟨_, rfl, byteTaken_unreadOut hd⟩, (byteTaken_sameIn s).waitingIn hinv⟩

theorem execUsbGet_bytes_of_empty (hd : s.outHasData = false) (h : exec .usbGet s = .next t) : SameBytes s t := by
  change execUsbGet s = _ at h
  rw [execUsbGet_of_empty hd] at h
  cases h
  exact ⟨rfl, rfl⟩

/-! ### The bytes that a step moves -/

/-- No byte is lost, repeated or overtaken by the step from `s` to `t`, in either direction. -/
structure InOrder (s t : State) : Prop where
  in_ : s.waitingIn ++ s.acceptedIn = s.sentIn t ++ t.waitingIn
  out : s.unreadOut ++ s.receivedOut t = s.gotOut t ++ t.unreadOut

section
variable {d : Option Input}

theorem acceptedIn_eq_nil (hd : s.nextDone = d) (h : ∀ b, d ≠ some (.request [0x03, b])) : s.acceptedIn = [] := by
  unfold State.acceptedIn
  rw [hd]
  split
  · exact absurd rfl (h _)
  · rfl

theorem sentIn_eq_nil (hd : s.nextDone = d)
    (h : ∀ ep, d = some (.token (.inToken s.addrOut ep)) → ep ≠ 0 → inAddress ep = s.cfg.epIn →
      ∀ toggle bytes, t.answer ≠ some (.data toggle bytes)) : s.sentIn t = [] := by
  unfold State.sentIn
  rw [hd]
  split
  · next a ep toggle bytes hans =>
    split
    · next hbulk =>
      obtain ⟨rfl, h0, hep⟩ := hbulk
      exact absurd hans (h ep rfl h0 hep _ _)
    · rfl
  · rfl

theorem receivedOut_eq_nil (hd : s.nextDone = d)
    (h : ∀ ep data, d = some (.token (.outToken s.addrOut ep data)) → ep ≠ 0 → ep.zeroExtend 8 = s.cfg.epOut →
      t.answer ≠ some .ack) : s.receivedOut t = [] := by
  unfold State.receivedOut
  rw [hd]
  split
  · next a ep data hans =>
    split
    · next hbulk =>
      obtain ⟨rfl, h0, hep⟩ := hbulk
      exact absurd hans (h ep data rfl h0 hep)
    · rfl
  · rfl

theorem gotOut_eq_nil (hd : s.nextDone = d) (h : d ≠ some (.request [0x06])) : s.gotOut t = [] := by
  unfold State.gotOut
  rw [hd]
  split
  · exact absurd rfl h
  · rfl

end

theorem acceptedIn_of_put {b : Byte} (hd : s.nextDone = some (.request [0x03, b])) :
    s.acceptedIn = if s.inReady then [b] else [] := by
  unfold State.acceptedIn
  rw [hd]
  rfl

theorem gotOut_of_get (hd : s.nextDone = some (.request [0x06])) {b : Byte} (hdata : s.outHasData = true)
    (hr : t.response = some ⟨.ok, [b]⟩) : s.gotOut t = [b] := by
  unfold State.gotOut
  rw [hd, hr]
  exact if_pos hdata

theorem gotOut_of_empty (hdata : s.outHasData = false) : s.gotOut t = [] := by
  unfold State.gotOut
  split
  · exact if_neg (by rw [hdata]; nofun)
  · rfl

theorem sentIn_of_data {ep : BitVec 4} {toggle : Bool} {bytes : List Byte}
    (hd : s.nextDone = some (.token (.inToken s.addrOut ep))) (h0 : ep ≠ 0) (hep : inAddress ep = s.cfg.epIn)
    (ht : t.answer = some (.data toggle bytes)) : s.sentIn t = bytes := by
  unfold State.sentIn
  rw [hd, ht]
  exact if_pos ⟨rfl, h0, hep⟩

theorem receivedOut_of_ack {ep : BitVec 4} {data : List Byte}
    (hd : s.nextDone = some (.token (.outToken s.addrOut ep data))) (h0 : ep ≠ 0)
    (hep : ep.zeroExtend 8 = s.cfg.epOut) (ht : t.answer = some .ack) : s.receivedOut t = data := by
  unfold State.receivedOut
  rw [hd, ht]
  exact if_pos ⟨rfl, h0, hep⟩

/-- The taking of the input moves no bytes. -/
theorem SameBytes.of_accept {rest : List Input} (h : SameBytes (s.accept rest) t) : SameBytes s t := ⟨h.in_, h.out⟩

theorem InOrder.of_sameBytes (h : SameBytes s t) (ha : s.acceptedIn = []) (hs : s.sentIn t = [])
    (hr : s.receivedOut t = []) (hg : s.gotOut t = []) : InOrder s t :=
  ⟨by rw [ha, hs, h.in_, List.append_nil, List.nil_append], by rw [hr, hg, h.out, List.append_nil, List.nil_append]⟩

/-! ### Requests -/

theorem InOrder.put {b : Byte} (hinv : s.Inv) (hp : s.PingPong) (hd : s.nextDone = some (.request [0x03, b]))
    {rest : List Input} (h : exec (.usbPut b) (s.accept rest) = .next t) : InOrder s t := by
  obtain ⟨hin, hout⟩ := execUsbPut_bytes (s := s.accept rest) (hinv.accept rest s.bench) hp b h
  constructor
  · rw [acceptedIn_of_put hd, sentIn_eq_nil hd nofun, hin, List.nil_append]
    change s.waitingIn ++ _ = if s.inReady then s.waitingIn ++ [b] else s.waitingIn
    split
    · rfl
    · exact List.append_nil _
  · rw [receivedOut_eq_nil hd nofun, gotOut_eq_nil hd (by simp), hout, List.append_nil]
    rfl

theorem InOrder.get (hinv : s.Inv) (hd : s.nextDone = some (.request [0x06]))
    {rest : List Input} (h : exec .usbGet (s.accept rest) = .next t) : InOrder s t := by
  have ha : s.acceptedIn = [] := acceptedIn_eq_nil hd (by simp)
  have hs : s.sentIn t = [] := sentIn_eq_nil hd nofun
  have hr : s.receivedOut t = [] := receivedOut_eq_nil hd nofun
  cases hdata : s.outHasData with
  | true =>
    obtain ⟨⟨b, hresp, hout⟩, hin⟩ :=
      execUsbGet_bytes_of_data (s := s.accept rest) (hinv.accept rest s.bench) hdata h
    constructor
    · rw [ha, hs, hin, List.append_nil]
      rfl
    · rw [hr, gotOut_of_get hd hdata hresp, List.append_nil]
      exact hout
  | false =>
    have hsame := execUsbGet_bytes_of_empty (s := s.accept rest) hdata h
    exact .of_sameBytes hsame.of_accept ha hs hr (gotOut_of_empty hdata)

theorem InOrder.request {bytes : List Byte} (hinv : s.Inv) (hp : s.PingPong) (hr : s.resetWaits = false)
    (hd : s.nextDone = some (.request bytes)) {rest : List Input} {j : Instr} (hj : decodeClient bytes = .ok j)
    (h : exec j (s.accept rest) = .next t) (hpulse : .ppReset ∉ t.pulses) : InOrder s t := by
  obtain ⟨-, hclass, hbytes⟩ := decodeClient_isEncoding (m := s.cfg.chip) hj
  by_cases hput : ∃ b, j = .usbPut b
  · obtain ⟨b, rfl⟩ := hput
    subst hbytes
    exact .put hinv hp hd h
  by_cases hget : j = .usbGet
  · subst hget hbytes
    exact .get hinv hd h
  have hsame : SameBytes (s.accept rest) t :=
    exec_sameBytes (by rw [hclass]; nofun) (fun b hb => hput ⟨b, hb⟩) hget h (hinv.accept rest s.bench) hp hr hpulse
  refine .of_sameBytes hsame.of_accept (acceptedIn_eq_nil hd fun b hb => ?_) (sentIn_eq_nil hd nofun)
    (receivedOut_eq_nil hd nofun) (gotOut_eq_nil hd fun hb => ?_)
  · cases hb
    exact hput ⟨b, (Except.ok.inj hj).symm⟩
  · cases hb
    exact hget (Except.ok.inj hj).symm

theorem InOrder.illegal {bytes : List Byte} {op : Byte} (hd : s.nextDone = some (.request bytes))
    (hj : decodeClient bytes = .error (.illegalOp op)) (rest : List Input) :
    InOrder s (respond .illegal [] (s.accept rest)) := by
  refine .of_sameBytes ⟨rfl, rfl⟩ (acceptedIn_eq_nil hd fun b hb => ?_) (sentIn_eq_nil hd nofun)
    (receivedOut_eq_nil hd nofun) (gotOut_eq_nil hd fun hb => ?_)
  · cases hb
    cases hj
  · cases hb
    cases hj

/-! ### Tokens -/

theorem sieInToken_sameBytes {ep : BitVec 4} (h : ¬ (ep ≠ 0 ∧ inAddress ep = s.cfg.epIn)) :
    SameBytes s (sieInToken ep s) := by
  unfold sieInToken
  split
  · exact sieIn0_sameBytes s
  next h0 =>
  split
  · next hep => exact absurd ⟨h0, hep⟩ h
  · split <;> exact ⟨rfl, rfl⟩

theorem sieOutToken_sameBytes (hinv : s.Inv) {ep : BitVec 4} {data : List Byte}
    (h : ¬ (ep ≠ 0 ∧ ep.zeroExtend 8 = s.cfg.epOut)) : SameBytes s (sieOutToken ep data s) := by
  unfold sieOutToken
  split
  · exact sieOut0_sameBytes hinv data
  next h0 =>
  split
  · next hep => exact absurd ⟨h0, hep⟩ h
  · exact ⟨rfl, rfl⟩

theorem sieToken_inToken_sameBytes {a : BitVec 7} {ep : BitVec 4}
    (h : ¬ (a = s.addrOut ∧ ep ≠ 0 ∧ inAddress ep = s.cfg.epIn)) : SameBytes s (sieToken (.inToken a ep) s) := by
  by_cases ha : a = s.addrOut
  · rw [show sieToken (.inToken a ep) s = sieInToken ep s from if_pos ha]
    exact sieInToken_sameBytes fun hep => h ⟨ha, hep⟩
  · rw [show sieToken (.inToken a ep) s = s.answered .silent from if_neg ha]
    exact ⟨rfl, rfl⟩

theorem sieToken_outToken_sameBytes (hinv : s.Inv) {a : BitVec 7} {ep : BitVec 4} {data : List Byte}
    (h : ¬ (a = s.addrOut ∧ ep ≠ 0 ∧ ep.zeroExtend 8 = s.cfg.epOut)) :
    SameBytes s (sieToken (.outToken a ep data) s) := by
  by_cases ha : a = s.addrOut
  · rw [show sieToken (.outToken a ep data) s = sieOutToken ep data s from if_pos ha]
    exact sieOutToken_sameBytes hinv fun hep => h ⟨ha, hep⟩
  · rw [show sieToken (.outToken a ep data) s = s.answered .silent from if_neg ha]
    exact ⟨rfl, rfl⟩

/-- An IN token on the bulk-IN endpoint moves what the SIE sends. -/
theorem InOrder.bulkIn (hinv : s.Inv) {ep : BitVec 4} (h0 : ep ≠ 0) (hep : inAddress ep = s.cfg.epIn)
    (hd : s.nextDone = some (.token (.inToken s.addrOut ep))) (rest : List Input) :
    InOrder s (sieBulkIn (s.accept rest)) := by
  have ha : s.acceptedIn = [] := acceptedIn_eq_nil hd nofun
  have hr : s.receivedOut (sieBulkIn (s.accept rest)) = [] := receivedOut_eq_nil hd nofun
  have hg : s.gotOut (sieBulkIn (s.accept rest)) = [] := gotOut_eq_nil hd nofun
  have hout : (sieBulkIn (s.accept rest)).unreadOut = s.unreadOut :=
    (sieBulkIn_sameOut (s.accept rest)).unreadOut (hinv.accept rest s.bench)
  by_cases hdata : ∃ toggle bytes, (sieBulkIn (s.accept rest)).answer = some (.data toggle bytes)
  · obtain ⟨toggle, bytes, hans⟩ := hdata
    refine ⟨?_, by rw [hr, hg, hout, List.append_nil, List.nil_append]⟩
    rw [ha, sentIn_of_data hd h0 hep hans, List.append_nil]
    exact sieBulkIn_of_data hans
  · have hnone toggle bytes : (sieBulkIn (s.accept rest)).answer ≠ some (.data toggle bytes) :=
      fun hans => hdata ⟨toggle, bytes, hans⟩
    exact .of_sameBytes ⟨sieBulkIn_of_no_data hnone, hout⟩ ha (sentIn_eq_nil hd fun _ _ _ _ => hnone) hr hg

/-- An OUT token on the bulk-OUT endpoint moves what the SIE acknowledges. -/
theorem InOrder.bulkOut (hinv : s.Inv) (hp : s.PingPong) {ep : BitVec 4} {data : List Byte} (h0 : ep ≠ 0)
    (hep : ep.zeroExtend 8 = s.cfg.epOut) (hd : s.nextDone = some (.token (.outToken s.addrOut ep data)))
    (rest : List Input) : InOrder s (sieBulkOut data (s.accept rest)) := by
  have hacc : (s.accept rest).Inv := hinv.accept rest s.bench
  have ha : s.acceptedIn = [] := acceptedIn_eq_nil hd nofun
  have hs : s.sentIn (sieBulkOut data (s.accept rest)) = [] := sentIn_eq_nil hd nofun
  have hg : s.gotOut (sieBulkOut data (s.accept rest)) = [] := gotOut_eq_nil hd nofun
  have hin : (sieBulkOut data (s.accept rest)).waitingIn = s.waitingIn :=
    (sieBulkOut_sameIn hacc data).waitingIn hacc
  by_cases hack : (sieBulkOut data (s.accept rest)).answer = some .ack
  · refine ⟨by rw [ha, hs, hin, List.append_nil, List.nil_append], ?_⟩
    rw [hg, receivedOut_of_ack hd h0 hep hack, List.nil_append]
    exact (sieBulkOut_of_ack hacc hp hack).symm
  · exact .of_sameBytes ⟨hin, sieBulkOut_of_no_ack hack⟩ ha hs (receivedOut_eq_nil hd fun _ _ _ _ _ => hack) hg

theorem InOrder.inToken (hinv : s.Inv) {a : BitVec 7} {ep : BitVec 4}
    (hd : s.nextDone = some (.token (.inToken a ep))) (rest : List Input) :
    InOrder s (sieToken (.inToken a ep) (s.accept rest)) := by
  by_cases hbulk : a = s.addrOut ∧ ep ≠ 0 ∧ inAddress ep = s.cfg.epIn
  · obtain ⟨rfl, h0, hep⟩ := hbulk
    rw [show sieToken (.inToken s.addrOut ep) (s.accept rest) = _ from
      sieToken_inToken_bulk (s := s.accept rest) h0 hep]
    exact .bulkIn hinv h0 hep hd rest
  · refine .of_sameBytes (sieToken_inToken_sameBytes (s := s.accept rest) hbulk).of_accept (acceptedIn_eq_nil hd nofun)
      (sentIn_eq_nil hd fun ep' he h0 hep => ?_) (receivedOut_eq_nil hd nofun) (gotOut_eq_nil hd nofun)
    cases he
    exact absurd ⟨rfl, h0, hep⟩ hbulk

theorem InOrder.outToken (hinv : s.Inv) (hp : s.PingPong) {a : BitVec 7} {ep : BitVec 4} {data : List Byte}
    (hd : s.nextDone = some (.token (.outToken a ep data))) (rest : List Input) :
    InOrder s (sieToken (.outToken a ep data) (s.accept rest)) := by
  by_cases hbulk : a = s.addrOut ∧ ep ≠ 0 ∧ ep.zeroExtend 8 = s.cfg.epOut
  · obtain ⟨rfl, h0, hep⟩ := hbulk
    rw [show sieToken (.outToken s.addrOut ep data) (s.accept rest) = _ from
      sieToken_outToken_bulk (s := s.accept rest) h0 hep data]
    exact .bulkOut hinv hp h0 hep hd rest
  · have hsame : SameBytes (s.accept rest) (sieToken (.outToken a ep data) (s.accept rest)) :=
      sieToken_outToken_sameBytes (hinv.accept rest s.bench) hbulk
    refine .of_sameBytes hsame.of_accept (acceptedIn_eq_nil hd nofun) (sentIn_eq_nil hd nofun)
      (receivedOut_eq_nil hd fun ep' data' he h0 hep => ?_) (gotOut_eq_nil hd nofun)
    cases he
    exact absurd ⟨rfl, h0, hep⟩ hbulk

theorem InOrder.setup (hinv : s.Inv) {a : BitVec 7} {p : Vector Byte 8}
    (hd : s.nextDone = some (.token (.setup a p))) (rest : List Input) :
    InOrder s (sieToken (.setup a p) (s.accept rest)) := by
  have hsame : SameBytes (s.accept rest) (sieToken (.setup a p) (s.accept rest)) := by
    unfold sieToken
    dsimp only
    split
    · exact sieSetup_sameBytes (hinv.accept rest s.bench) p
    · exact ⟨rfl, rfl⟩
  exact .of_sameBytes hsame.of_accept (acceptedIn_eq_nil hd nofun) (sentIn_eq_nil hd nofun)
    (receivedOut_eq_nil hd nofun) (gotOut_eq_nil hd nofun)

/-! ### The step -/

theorem resetWaits_of_posted {ev : SieEvent} (hq : t.sie.queue = s.sie.queue ++ [ev]) (hev : ev ≠ .busReset)
    (hr : s.resetWaits = false) : t.resetWaits = false := by
  refine Bool.eq_false_iff.mpr fun hwaits => ?_
  have hm := State.resetWaits_eq_true.mp hwaits
  rw [hq, List.mem_append, List.mem_singleton] at hm
  exact Bool.eq_false_iff.mp hr (State.resetWaits_eq_true.mpr (hm.resolve_right (Ne.symm hev)))

theorem TokenOutcome.resetWaits {k : Token} (h : TokenOutcome s k t) (hk : k ≠ .busReset)
    (hr : s.resetWaits = false) : t.resetWaits = false := by
  cases h with
  | answers _ a => exact hr
  | resets => exact absurd rfl hk
  | setup p => exact resetWaits_of_posted (sieSetup_queue p s) nofun hr
  | sends0 _ ho => exact resetWaits_of_posted (ev := .doneEp0in) rfl nofun hr
  | receives0 _ data ho hl => exact resetWaits_of_posted (ev := .doneEp0out) rfl nofun hr
  | sendsBulk _ ho => exact resetWaits_of_posted (ev := .doneBin s.sie.nextIn) rfl nofun hr
  | receivesBulk _ data ho hl => exact resetWaits_of_posted (ev := .doneBout s.sie.nextOut) rfl nofun hr

/-- The settling moves no bytes while no bus reset waits, and it changes neither the answer nor the response. -/
theorem InOrder.settled (h : InOrder s t) (hr : t.resetWaits = false) : InOrder s (sieSettle t) := by
  have hsame := sieSettle_sameBytes hr
  have hs : s.sentIn (sieSettle t) = s.sentIn t := by rw [State.sentIn, State.sentIn, sieSettle_answer]
  have hrec : s.receivedOut (sieSettle t) = s.receivedOut t := by
    rw [State.receivedOut, State.receivedOut, sieSettle_answer]
  have hg : s.gotOut (sieSettle t) = s.gotOut t := by rw [State.gotOut, State.gotOut, sieSettle_response]
  exact ⟨by rw [hs, hsame.in_, h.in_], by rw [hrec, hg, hsame.out, h.out]⟩

/-- What performs an input moves the bytes in order, and leaves no bus reset waiting. -/
theorem stepInput_inOrder {i : Input} {rest : List Input} (hinv : s.Inv) (hp : s.PingPong) (hr : s.resetWaits = false)
    (hd : s.nextDone = some i) (hi : i ≠ .token .busReset) (h : stepInput i (s.accept rest) = .next t)
    (hpulse : .ppReset ∉ t.pulses) : InOrder s t ∧ t.resetWaits = false := by
  rcases stepInput_eq_next h with ⟨bytes, j, rfl, hj, he⟩ | ⟨bytes, op, rfl, hj, rfl⟩ | ⟨k, rfl, rfl⟩ |
    ⟨o, rfl, rfl⟩ | ⟨rfl, rfl⟩
  · have hc : j.opClass ≠ .setup := by
      rw [(decodeClient_ok hj).1]
      nofun
    exact ⟨.request hinv hp hr hd hj he hpulse, exec_resetWaits hc he (hinv.accept rest s.bench) hp hr hpulse⟩
  · exact ⟨.illegal hd hj rest, hr⟩
  · refine ⟨?_, (sieToken_outcome k (s.accept rest)).resetWaits (fun hk => hi (hk ▸ rfl)) hr⟩
    cases k with
    | busReset => exact absurd rfl hi
    | setup a p => exact .setup hinv hd rest
    | inToken a ep => exact .inToken hinv hd rest
    | outToken a ep data => exact .outToken hinv hp hd rest
  · have hbus := BusOnly.outsideAct o (s.accept rest)
    refine ⟨.of_sameBytes hbus.sameBytes.of_accept (acceptedIn_eq_nil hd nofun)
      (sentIn_eq_nil hd nofun) (receivedOut_eq_nil hd nofun) (gotOut_eq_nil hd nofun), ?_⟩
    rw [State.resetWaits, hbus.sie]
    exact hr
  · exact ⟨.of_sameBytes ⟨rfl, rfl⟩ (acceptedIn_eq_nil hd nofun) (sentIn_eq_nil hd nofun)
      (receivedOut_eq_nil hd nofun) (gotOut_eq_nil hd nofun), hr⟩

/-- A step that is asked for nothing by the inputs, or by the bench, moves no bytes. -/
theorem InOrder.of_nothing (hd : s.nextDone = none) (h : SameBytes s t) : InOrder s t :=
  .of_sameBytes h (acceptedIn_eq_nil hd nofun) (sentIn_eq_nil hd nofun) (receivedOut_eq_nil hd nofun)
    (gotOut_eq_nil hd nofun)

theorem step_inOrder (hinv : s.Inv) (hp : s.PingPong) (h : step s = .next t) (hk : s.keepsQueues t) : InOrder s t := by
  obtain ⟨hr, hreset, hpulse⟩ := hk
  rcases step_eq_next h with ⟨hb, hi, rfl⟩ | ⟨bytes, u, hb, hu, rfl⟩ | ⟨i, rest, u, hb, hi, hu, rfl⟩
  · exact .of_nothing (by rw [State.nextDone, hb, hi]; rfl) ⟨rfl, rfl⟩
  · obtain ⟨j, hj, he⟩ := stepBench_eq_next hu
    have hbus := exec_busOnly (usesUsb_of_serial (decodeSerial_opClass hj)) he
    have hsame : SameBytes s u := ⟨hbus.sameBytes.in_, hbus.sameBytes.out⟩
    refine (InOrder.of_nothing (by rw [State.nextDone, hb]; rfl) hsame).settled ?_
    rw [State.resetWaits, hbus.sie]
    exact hr
  · have hd : s.nextDone = some i := by rw [State.nextDone, hb, hi]; rfl
    rw [sieSettle_pulses] at hpulse
    obtain ⟨horder, hur⟩ := stepInput_inOrder hinv hp hr hd (fun hi => hreset (hi ▸ hd)) hu hpulse
    exact horder.settled hur

end

/-! ### The bound -/

theorem length_armedIn_le {s : State} (hinv : s.Inv) (k : Fin 2) : (s.armedIn k).length ≤ s.cfg.bulkSize.val := by
  unfold State.armedIn
  split
  · exact (Memory.length_readList _ _ _).le.trans (hinv.count (.bin k))
  · exact Nat.zero_le _

/-- While a buffer fills only the other can be armed. -/
theorem length_waitingIn_le {s : State} (hinv : s.Inv) : s.waitingIn.length ≤ 2 * s.cfg.bulkSize.val := by
  have hnext := length_armedIn_le hinv s.sie.nextIn
  have hlast := length_armedIn_le hinv (1 - s.sie.nextIn)
  have hother := length_armedIn_le hinv (1 - s.bin.active)
  have hfill := hinv.fill
  by_cases hf : 0 < s.bin.fill
  · rw [waitingIn_of_filling (hinv.fillOwned hf), List.length_append, Memory.length_readList]
    omega
  · rw [State.waitingIn, List.length_append, List.length_append, Memory.length_readList]
    omega

/-! ### The obligations -/

/-- Settles O24: the acts of the manager and the SIE on the bulk-IN queue one by one, and every step made of them. -/
theorem inQueueIsFirstInFirstOut : Obligations.InQueueIsFirstInFirstOut :=
  fun _ hinv hp => ⟨length_waitingIn_le hinv, fun b _ h => (execUsbPut_bytes hinv hp b h).1,
    fun _ h => (execUsbFlush_sameBytes hinv hp h).in_, fun _ _ h => sieBulkIn_of_data h, sieBulkIn_of_no_data,
    sieBulkIn_of_armed, fun _ h hk => (step_inOrder hinv hp h hk).in_⟩

/-- Settles O25: the acts of the SIE and the manager on the bulk-OUT queue one by one, and every step made of them. -/
theorem outQueueIsFirstInFirstOut : Obligations.OutQueueIsFirstInFirstOut :=
  fun _ hinv hp => ⟨fun _ h => sieBulkOut_of_ack hinv hp h, fun _ h => sieBulkOut_of_no_ack h,
    fun _ hd h => (execUsbGet_bytes_of_data hinv hd h).1, fun _ hd h => (execUsbGet_bytes_of_empty hd h).out,
    fun _ h hk => (step_inOrder hinv hp h hk).out⟩

end Sys2Proof.Machine
end

section
/-! PROOF. The raw register operations of the client (42_serial_bus.md R352 to R356), the bits that BIT MODIFY changes
(R355), and how the reference chip records an error and shows its flags (60_exceptions.md R609, R613). -/

namespace Sys2Proof.Machine

/-! ### The raw register operations -/

/-- Settles O40: each raw operation is the serial command of its name, with an answer to the client. -/
theorem rawOperationsOfTheClient : Obligations.RawOperationsOfTheClient := by
  intro s hm c
  obtain ⟨⟨_, hreset, reset⟩, read, write, modify, ⟨_, hstatus, status⟩, -, -⟩ := serialCommandsComplete s hm
  refine ⟨?reset, fun a => ?read, fun a d => ?write, fun a k d => ?modify, ?status⟩
  case reset =>
    cases hreset
    obtain ⟨hcan, -, hrest⟩ := reset
    exact ⟨_, rfl, rfl, hcan, hrest⟩
  case read =>
    obtain ⟨_, ht, hcan, -, hchip, hsent⟩ := read a
    cases ht
    exact ⟨_, _, rfl, rfl, hcan, hsent, hchip, fun ha => if_pos ha⟩
  case write =>
    obtain ⟨_, ht, hcan, -, hrest⟩ := write a [d]
    cases ht
    exact ⟨_, rfl, rfl, hcan, hrest⟩
  case modify =>
    obtain ⟨_, ht, hcan, -, hrest⟩ := modify a k d
    cases ht
    exact ⟨_, rfl, rfl, hcan, hrest⟩
  case status =>
    cases hstatus
    obtain ⟨hcan, -, hchip, hsent⟩ := status
    exact ⟨_, rfl, by simp [hm, c], hcan, hsent, hchip⟩

/-! ### BIT MODIFY (42_serial_bus.md R355) -/

/-- Settles O42: BIT MODIFY is one write of the register with the masked bits replaced, of which the writable ones are
taken. -/
theorem bitModifyChangesTheMaskedBits : Obligations.BitModifyChangesTheMaskedBits := by
  intro c a k d ha hs hmode
  have hnot : c.ignores mcp2515 a.toNat = false := by
    rw [Chip.ignores_mcp2515 c ha]
    cases hc : configOnly a.toNat
    · rfl
    · rw [hmode hc]
      rfl
  have heq : c.bitModify mcp2515 a.toNat k d = c.writeAt mcp2515 a.toNat (mergeBits k (c.reg a) d) :=
    Chip.bitModify_eq c mcp2515 a.toNat k d (by rw [mcp2515_bitModify, hs])
  rw [heq]
  constructor
  · intro j
    have hcell : (c.writeAt mcp2515 a.toNat (mergeBits k (c.reg a) d)).reg a =
        mergeBits (writableBits a.toNat) (c.reg a) (mergeBits k (c.reg a) d) := by
      rw [Chip.reg_eq, Chip.cell_writeAt, if_pos ⟨rfl, ha, hnot⟩, mcp2515_info ha]
      rfl
    rw [hcell, getLsbD_mergeBits, getLsbD_mergeBits]
    cases (writableBits a.toNat).getLsbD j <;> simp
  · intro b hb
    rw [Chip.reg_eq, Chip.cell_writeAt, if_neg fun e => hb (BitVec.eq_of_toNat_eq e.1.symm)]
    rfl

/-! ### Errors (60_exceptions.md R609, 45_can_rx.md R511) -/

/-- A later change of a register that neither flags nor enables an error leaves the record as it is. -/
theorem ErrorRecorded.put {c d : Chip} {e : Byte} (h : ErrorRecorded c d e) {a : Byte} (v : Byte)
    (ha : a ∉ [0x2B, 0x2C, 0x2D]) : ErrorRecorded c (d.put a v) e := by
  simp only [List.mem_cons, List.not_mem_nil, or_false, not_or] at ha
  obtain ⟨hinte, hintf, heflg⟩ := ha
  have hpin : (d.put a v).errPin mcp2515 = d.errPin mcp2515 := by
    rw [Chip.errPin, mcp2515_canintf, mcp2515_caninte, Chip.reg_put_other d v hintf, Chip.reg_put_other d v hinte]
    rfl
  exact {
    eflg := (Chip.reg_put_other d v heflg).trans h.eflg
    errif := (Chip.reg_put_other d v hintf).trans h.errif
    int := fun he => hpin.trans (h.int he)
    onBus := h.onBus
    sent := h.sent }

section
variable (c : Chip)

/-- INT is asserted while an enabled interrupt flag is set (60_exceptions.md R613). -/
theorem Chip.errPin_iff : c.errPin mcp2515 = true ↔ c.reg 0x2C &&& c.reg 0x2B ≠ 0 := bne_iff_ne

theorem Chip.errPin_of_flag {j : Nat} (hf : (c.reg 0x2C).getLsbD j = true) (he : (c.reg 0x2B).getLsbD j = true) :
    c.errPin mcp2515 = true := by
  have hbit : (c.reg 0x2C &&& c.reg 0x2B).getLsbD j = true := by rw [BitVec.getLsbD_and, hf, he]; rfl
  refine (Chip.errPin_iff c).mpr fun h => ?_
  rw [h] at hbit
  exact absurd hbit (by simp)

theorem Chip.recordError_of_enabled (h : (c.reg 0x2B).getLsbD 5 = true) (flags : Byte) :
    c.recordError mcp2515 flags = (c.put 0x2D flags).put 0x2C (c.reg 0x2C ||| 0x20) := by
  rw [← Chip.reg_put_other c flags (by decide : (0x2D : Byte) ≠ 0x2C)]
  exact if_pos h

theorem Chip.recordError_of_disabled (h : (c.reg 0x2B).getLsbD 5 = false) (flags : Byte) :
    c.recordError mcp2515 flags = c.put 0x2D flags :=
  if_neg (ne_true_of_eq_false h)

theorem Chip.recordError_recorded (flags : Byte) : ErrorRecorded c (c.recordError mcp2515 flags) flags := by
  cases h : (c.reg 0x2B).getLsbD 5
  · rw [Chip.recordError_of_disabled c h]
    exact {
      eflg := Chip.reg_put_same c _ _ (by decide)
      errif := by rw [h]; exact Chip.reg_put_other c _ (by decide)
      int := fun he => absurd (h.symm.trans he) (by decide)
      onBus := rfl
      sent := rfl }
  · rw [Chip.recordError_of_enabled c h]
    have hintf : ((c.put 0x2D flags).put 0x2C (c.reg 0x2C ||| 0x20)).reg 0x2C = c.reg 0x2C ||| 0x20 :=
      Chip.reg_put_same _ _ _ (by decide)
    have hinte : ((c.put 0x2D flags).put 0x2C (c.reg 0x2C ||| 0x20)).reg 0x2B = c.reg 0x2B := by
      rw [Chip.reg_put_other _ _ (by decide), Chip.reg_put_other _ _ (by decide)]
    exact {
      eflg := by rw [Chip.reg_put_other _ _ (by decide), Chip.reg_put_same _ _ _ (by decide)]
      errif := by rw [hintf, h]; rfl
      int := fun _ => Chip.errPin_of_flag _ (j := 5) (by rw [hintf]; simp) (by rw [hinte, h])
      onBus := rfl
      sent := rfl }

theorem Chip.reg_recordError_other (flags : Byte) {a : Byte} (ha : a ∉ [0x2C, 0x2D]) :
    (c.recordError mcp2515 flags).reg a = c.reg a := by
  simp only [List.mem_cons, List.not_mem_nil, or_false, not_or] at ha
  obtain ⟨hintf, heflg⟩ := ha
  cases h : (c.reg 0x2B).getLsbD 5
  · rw [Chip.recordError_of_disabled c h, Chip.reg_put_other _ _ (Ne.symm heflg)]
  · rw [Chip.recordError_of_enabled c h, Chip.reg_put_other _ _ (Ne.symm hintf), Chip.reg_put_other _ _ (Ne.symm heflg)]

/-- A bus error gives EFLG the flags that the chip changes on its own, which are all but those of an overrun. -/
theorem Chip.busError_eq (flags tx rx : Byte) :
    c.busError mcp2515 flags tx rx =
      ((c.recordError mcp2515 ((c.reg 0x2D &&& 0xC0) ||| (flags &&& 0x3F))).put 0x1C tx).put 0x1D rx := by
  rw [Chip.busError, mcp2515_eflg, mcp2515_info (by decide)]
  rfl

theorem Chip.reg_busError_other (flags tx rx : Byte) {a : Byte} (ha : a ∉ [0x1C, 0x1D, 0x2C, 0x2D]) :
    (c.busError mcp2515 flags tx rx).reg a = c.reg a := by
  rw [List.mem_cons, List.mem_cons, not_or, not_or] at ha
  obtain ⟨htec, hrec, hrest⟩ := ha
  rw [Chip.busError_eq, Chip.reg_put_other _ _ (Ne.symm hrec), Chip.reg_put_other _ _ (Ne.symm htec),
    Chip.reg_recordError_other c _ hrest]

theorem Chip.busError_recorded (flags tx rx : Byte) :
    ErrorRecorded c (c.busError mcp2515 flags tx rx) ((c.reg 0x2D &&& 0xC0) ||| (flags &&& 0x3F)) ∧
      (c.busError mcp2515 flags tx rx).reg 0x1C = tx ∧ (c.busError mcp2515 flags tx rx).reg 0x1D = rx := by
  rw [Chip.busError_eq]
  refine ⟨((Chip.recordError_recorded c _).put tx (by decide)).put rx (by decide), ?_, ?_⟩
  · rw [Chip.reg_put_other _ _ (by decide), Chip.reg_put_same _ _ _ (by decide)]
  · exact Chip.reg_put_same _ _ _ (by decide)

theorem Chip.overrun0_eq : c.overrun mcp2515 0 = c.recordError mcp2515 (c.reg 0x2D ||| 0x40) := rfl
theorem Chip.overrun1_eq : c.overrun mcp2515 1 = c.recordError mcp2515 (c.reg 0x2D ||| 0x80) := rfl

/-- A frame for buffer 0 that finds it full and may not roll over. -/
theorem Chip.receive_overrun0 {f : CanFrame} {n : Nat} (hr : c.modeReceives mcp2515 = true)
    (hfirst : (c.accepts0 mcp2515 f n && c.rxFull mcp2515 0) = true) (hroll : (c.reg 0x60).getLsbD 2 = false) :
    c.receive mcp2515 f n = c.overrun mcp2515 0 := by
  obtain ⟨haccept, hfull⟩ := Bool.and_eq_true_iff.mp hfirst
  have hbukt : c.bukt mcp2515 = false := hroll
  simp [Chip.receive, hr, haccept, hfull, hbukt]

/-- A frame for buffer 1 that finds it full: one that rolls over from buffer 0, or one that only buffer 1 accepts. -/
theorem Chip.receive_overrun1 {f : CanFrame} {n : Nat} (hr : c.modeReceives mcp2515 = true)
    (hsecond : (if (c.accepts0 mcp2515 f n && c.rxFull mcp2515 0) = true then (c.reg 0x60).getLsbD 2
      else !c.accepts0 mcp2515 f n && c.accepts1 mcp2515 f n) = true) (hfull : c.rxFull mcp2515 1 = true) :
    c.receive mcp2515 f n = c.overrun mcp2515 1 := by
  split at hsecond
  next hfirst =>
    obtain ⟨haccept, hfull0⟩ := Bool.and_eq_true_iff.mp hfirst
    have hbukt : c.bukt mcp2515 = true := hsecond
    simp [Chip.receive, hr, haccept, hfull0, hbukt, hfull]
  next =>
    obtain ⟨hnot, haccept⟩ := Bool.and_eq_true_iff.mp hsecond
    have hno : c.accepts0 mcp2515 f n = false := by simpa using hnot
    simp [Chip.receive, hr, hno, haccept, hfull]

/-! ### READ STATUS and the pins (42_serial_bus.md R351, 43_can_config.md R401, 60_exceptions.md R613) -/

theorem Chip.rxFull_eq (b : Fin 2) : c.rxFull mcp2515 b = (c.reg 0x2C).getLsbD b.val := by
  rw [Chip.rxFull, mcp2515_rxif_get, mcp2515_canintf]

/-- The status byte, bit by bit. -/
theorem Chip.getLsbD_status (j : Nat) : (c.status mcp2515).getLsbD j =
    (c.rxFull mcp2515 0 && decide (0 = j) || c.rxFull mcp2515 1 && decide (1 = j) ||
      c.txreq mcp2515 0 && decide (2 = j) || c.txif mcp2515 0 && decide (3 = j) ||
      c.txreq mcp2515 1 && decide (4 = j) || c.txif mcp2515 1 && decide (5 = j) ||
      c.txreq mcp2515 2 && decide (6 = j) || c.txif mcp2515 2 && decide (7 = j)) := by
  simp only [Chip.status, statusByte, BitVec.getLsbD_or, getLsbD_flagAt]
  rfl

theorem Chip.status_rxif (b : Fin 2) : (c.status mcp2515).getLsbD b.val = (c.reg 0x2C).getLsbD b.val := by
  rw [← Chip.rxFull_eq, Chip.getLsbD_status]
  match b with
  | 0 | 1 => simp

theorem Chip.status_txreq (x : Fin 3) : (c.status mcp2515).getLsbD (2 + 2 * x.val) =
    (c.reg (BitVec.ofNat 8 (0x30 + 0x10 * x.val))).getLsbD 3 := by
  rw [← mcp2515_ctrl, Chip.getLsbD_status]
  change _ = c.txreq mcp2515 x
  match x with
  | 0 | 1 | 2 => simp

theorem Chip.status_txif (x : Fin 3) :
    (c.status mcp2515).getLsbD (3 + 2 * x.val) = (c.reg 0x2C).getLsbD (2 + x.val) := by
  have hflag : c.txif mcp2515 x = (c.reg 0x2C).getLsbD (2 + x.val) := by
    match x with
    | 0 | 1 | 2 => rfl
  rw [← hflag, Chip.getLsbD_status]
  match x with
  | 0 | 1 | 2 => simp

/-- The level of RXbBF by the bits of BFPCTRL: the output is enabled, and it shows the flag or else `BbBFS`. -/
theorem Chip.rxPin_eq (b : Fin 2) :
    c.rxPin mcp2515 b = ((c.reg 0x0C).getLsbD (2 + b.val) &&
      (if (c.reg 0x0C).getLsbD b.val then (c.reg 0x2C).getLsbD b.val else !(c.reg 0x0C).getLsbD (4 + b.val))) := by
  match b with
  | 0 | 1 => rfl

/-- With both pins as buffer-full outputs, each shows its flag. -/
theorem Chip.rxPin_of_bufferFull (h : c.reg 0x0C = 0x0F) (b : Fin 2) :
    c.rxPin mcp2515 b = (c.reg 0x2C).getLsbD b.val := by
  have hbits : (0x0F : Byte).getLsbD (2 + b.val) = true ∧ (0x0F : Byte).getLsbD b.val = true := by revert b; decide
  rw [Chip.rxPin_eq, h, hbits.1, hbits.2]
  rfl

end

/-- Settles O43: a bus error and an overrun are recorded by the same rule, and the status byte and each pin are read off
the flags' registers. -/
theorem flagsAreRecordedAndReported : Obligations.FlagsAreRecordedAndReported := by
  refine ⟨fun c flags tx rx n => ?error, fun c f n hr => ⟨fun hfirst hroll => ?overrun0, fun hsecond hfull => ?overrun1⟩,
    fun c => ⟨Chip.status_rxif c, fun x => ⟨Chip.status_txreq c x, Chip.status_txif c x⟩, fun b => ?pin⟩,
    fun s hm => ⟨fun hw hb => ?rx0, fun hw hb => ?rx1, fun hw => ?err⟩⟩
  case error =>
    obtain ⟨hrecorded, htec, hrec⟩ := Chip.busError_recorded c flags tx rx
    exact ⟨hrecorded, htec, hrec, fun a ha => Chip.reg_busError_other c flags tx rx ha⟩
  case overrun0 =>
    rw [Chip.act, Chip.receive_overrun0 c hr hfirst hroll, Chip.overrun0_eq]
    exact ⟨Chip.recordError_recorded c _, fun a ha => Chip.reg_recordError_other c _ ha⟩
  case overrun1 =>
    rw [Chip.act, Chip.receive_overrun1 c hr hsecond hfull, Chip.overrun1_eq]
    exact ⟨Chip.recordError_recorded c _, fun a ha => Chip.reg_recordError_other c _ ha⟩
  case pin =>
    rw [Chip.rxPin_eq]
    refine ⟨fun he => ?_, fun he hmode => ?_, fun he hmode => ?_⟩
    · rw [he, Bool.false_and]
    · rw [he, hmode, Bool.true_and]
      rfl
    · rw [he, hmode, Bool.true_and, if_pos rfl]
  case rx0 =>
    rw [State.pinNow, hw, hm]
    exact Chip.rxPin_of_bufferFull s.chip hb 0
  case rx1 =>
    rw [State.pinNow, hw, hm]
    exact Chip.rxPin_of_bufferFull s.chip hb 1
  case err =>
    rw [State.pinNow, hw, hm]
    exact Bool.eq_iff_iff.mpr ((Chip.errPin_iff s.chip).trans decide_eq_true_iff.symm)

end Sys2Proof.Machine
end

section
/-! PROOF. What the CAN configuration operations put on the bus (43_can_config.md R402 to R421), and the error word of
CAN_READ_ERRFLAGS (R411, R412). -/

namespace Sys2Proof.Machine

/-! ### What goes over the bus -/

section
variable {s : State} (hm : s.cfg.chip = mcp2515)
include hm

theorem sentOnBus_timingWrites (c1 c2 c3 : Byte) : (timingWrites c1 c2 c3 s).sentOnBus =
    s.sentOnBus ++ [[0x02, 0x2A, c1], [0x02, 0x29, c2], [0x02, 0x28, c3]] := by
  simp [State.sentOnBus, timingWrites, hm]

theorem sentOnBus_maskWrites (m0 m1 m2 m3 : Byte) : (maskWrites m0 m1 m2 m3 s).sentOnBus =
    s.sentOnBus ++ [[0x02, 0x20, nativeMask m0, nativeMask m1, nativeMask m2, nativeMask m3],
      [0x02, 0x24, nativeMask m0, nativeMask m1, nativeMask m2, nativeMask m3]] := by
  simp [State.sentOnBus, maskWrites, hm]

theorem sentOnBus_codeWrites (c0 c1 c2 c3 : Byte) : (codeWrites c0 c1 c2 c3 s).sentOnBus =
    s.sentOnBus ++ [
      [0x02, 0x00, c0, c1 &&& 0xF7, c2, c3], [0x02, 0x04, c0, c1 ||| 0x08, c2, c3],
      [0x02, 0x08, c0, c1 &&& 0xF7, c2, c3], [0x02, 0x10, c0, c1 ||| 0x08, c2, c3],
      [0x02, 0x14, c0, c1 &&& 0xF7, c2, c3], [0x02, 0x18, c0, c1 ||| 0x08, c2, c3]] := by
  simp [State.sentOnBus, codeWrites, hm]

end

/-- The polarity of the legacy mask byte inverted is its complement (43_can_config.md R407). -/
theorem nativeMask_eq (m : Byte) : nativeMask m = ~~~m := BitVec.allOnes_xor

theorem execCanSetPreset_of_lt {k : Byte} (hk : k.toNat < 9) (s : State) :
    execCanSetPreset k s = .next (respond .ok [] (timingWrites s.cfg.preset[k.toNat].cnf1 s.cfg.preset[k.toNat].cnf2
      s.cfg.preset[k.toNat].cnf3 s)) := dif_pos hk

theorem execCanSetPreset_of_gt {k : Byte} (hk : 8 < k.toNat) (s : State) :
    execCanSetPreset k s = .next (respond .no [] s) := dif_neg (by omega)

/-- Settles O44: each operation answers after its writes, and an index above 8 is answered at once. -/
theorem configurationWrites : Obligations.ConfigurationWrites := by
  intro s hm
  refine ⟨fun c1 c2 c3 => ?timing, fun k hk => ?preset, fun k hk => execCanSetPreset_of_gt hk s,
    fun m0 m1 m2 m3 => ?mask, fun c0 c1 c2 c3 => ?code⟩
  case timing => exact ⟨_, rfl, rfl, by simp, sentOnBus_timingWrites hm c1 c2 c3⟩
  case preset => exact ⟨_, execCanSetPreset_of_lt hk s, rfl, by simp, sentOnBus_timingWrites hm _ _ _⟩
  case mask =>
    simp only [← nativeMask_eq]
    exact ⟨_, rfl, rfl, by simp, sentOnBus_maskWrites hm m0 m1 m2 m3⟩
  case code => exact ⟨_, rfl, rfl, by simp, sentOnBus_codeWrites hm c0 c1 c2 c3⟩

/-! ### The error word -/

/-- The error word of the reference chip, bit by bit: it is made of six bits of EFLG. -/
theorem errorWord_bits (e : Byte) :
    (errorWord mcp2515 e).getLsbD 0 = e.getLsbD 0 ∧
      (errorWord mcp2515 e).getLsbD 1 = (e.getLsbD 6 || e.getLsbD 7) ∧
      (errorWord mcp2515 e).getLsbD 2 = (e.getLsbD 3 || e.getLsbD 4) ∧
      (errorWord mcp2515 e).getLsbD 3 = e.getLsbD 5 ∧ (errorWord mcp2515 e).toNat < 16 := by
  have hword : errorWord mcp2515 e =
      (if e.getLsbD 0 then 0x1 else 0x0) ||| (if e.getLsbD 6 || e.getLsbD 7 then 0x2 else 0x0) |||
        (if e.getLsbD 3 || e.getLsbD 4 then 0x4 else 0x0) ||| (if e.getLsbD 5 then 0x8 else 0x0) := by
    simp [errorWord]
  rw [hword]
  generalize e.getLsbD 0 = warning
  generalize (e.getLsbD 6 || e.getLsbD 7) = overrun
  generalize (e.getLsbD 3 || e.getLsbD 4) = passive
  generalize e.getLsbD 5 = busOff
  revert warning overrun passive busOff
  decide

/-- Settles O46: one READ of EFLG, whose byte makes the error word. -/
theorem errorFlagsAreDecoded : Obligations.ErrorFlagsAreDecoded := by
  intro s hm e
  have hread : (txnRead s.cfg.chip.eflg s).1 = e := by rw [hm]; rfl
  refine ⟨_, errorWord mcp2515 e, rfl, ?response, by simp, rfl, ?sent, errorWord_bits e⟩
  case response => rw [hread, hm]; rfl
  case sent => simp [State.sentOnBus, respond, hm]

/-! ### CAN_INIT -/

theorem sentOnBus_initWrites {s : State} (hm : s.cfg.chip = mcp2515) : (initWrites s).sentOnBus =
    s.sentOnBus ++ [
      [0xC0],
      [0x02, 0x20, 0x00, 0x00, 0x00, 0x00], [0x02, 0x24, 0x00, 0x00, 0x00, 0x00],
      [0x02, 0x00, 0x00, 0x00, 0x00, 0x00], [0x02, 0x04, 0x00, 0x08, 0x00, 0x00],
      [0x02, 0x08, 0x00, 0x00, 0x00, 0x00], [0x02, 0x10, 0x00, 0x08, 0x00, 0x00],
      [0x02, 0x14, 0x00, 0x00, 0x00, 0x00], [0x02, 0x18, 0x00, 0x08, 0x00, 0x00],
      [0x02, 0x60, 0x04], [0x02, 0x2B, 0x00]] := by
  have hreset : (txnReset s).sentOnBus = s.sentOnBus ++ [[0xC0]] := by simp [State.sentOnBus, hm]
  have hcodes := sentOnBus_codeWrites (s := maskWrites 0xFF 0xFF 0xFF 0xFF (txnReset s)) (by simp [hm]) 0 0 0 0
  rw [sentOnBus_maskWrites (by simp [hm]), hreset] at hcodes
  have hafter : (initWrites s).sentOnBus =
      (codeWrites 0 0 0 0 (maskWrites 0xFF 0xFF 0xFF 0xFF (txnReset s))).sentOnBus ++
        [[0x02, 0x60, 0x04], [0x02, 0x2B, 0x00]] := by
    simp [State.sentOnBus, initWrites, hm, bitByte]
  rw [hafter, hcodes]
  simp [nativeMask]

/-- Sampling the pins puts nothing on the bus. -/
theorem testStage_mosi (g : SelfTestStage) (s : State) :
    (testStage g s).2.txns.map SerialTxn.mosi = (testTxns g.txns s).txns.map SerialTxn.mosi := by
  simp [testStage]

theorem sentOnBus_defaultSelfTest {s : State} (hm : s.cfg.chip = mcp2515) :
    (testStages defaultSelfTest.toList s).2.sentOnBus = s.sentOnBus ++ [
      [0x02, 0x0C, 0x2C],
      [0x02, 0x0C, 0x1C],
      [0x02, 0x0C, 0x3C], [0x02, 0x2B, 0x20], [0x05, 0x2C, 0x20, 0x20],
      [0x05, 0x2C, 0x20, 0x00], [0x02, 0x2B, 0x00]] := by
  simp [State.sentOnBus, defaultSelfTest, testStages, testStage_mosi, testTxns, testTxn, hm]

/-- R421 gives BFPCTRL both buffer-full outputs. -/
theorem mcp2515_pinFunction : pinFunction mcp2515 = 0x0F := rfl

theorem sentOnBus_restore {cfg : Params} {s : State} (hc : cfg.chip = mcp2515) (hm : s.cfg.chip = mcp2515) :
    (testTxns (restoreTxns cfg) s).sentOnBus =
      s.sentOnBus ++ [[0x02, 0x0C, 0x0F], [0x02, 0x2B, cfg.inteAfterInit]] := by
  simp [State.sentOnBus, restoreTxns, testTxns, testTxn, mcp2515_pinFunction, hc, hm]

/-- Settles O47: the resetting and the setting up, the self-test, and what restores the pins, one after another. -/
theorem initialisationTransactions : Obligations.InitialisationTransactions := by
  intro s hm ht
  refine ⟨_, (testStages s.cfg.selfTest.toList (initWrites s)).1, rfl, rfl, ?can, ?sent⟩
  case can => simp [respond]
  case sent =>
    have htest := sentOnBus_defaultSelfTest (s := initWrites s) (by simp [hm])
    have hrestore := sentOnBus_restore (s := (testStages s.cfg.selfTest.toList (initWrites s)).2) hm (by simp [hm])
    rw [ht, htest, sentOnBus_initWrites hm] at hrestore
    rw [ht]
    exact hrestore.trans (by simp)

end Sys2Proof.Machine
end


section
/-! PROOF. What the masks and filters of the reference chip hold after the operations that write them in configuration
mode, and which frames are accepted then (43_can_config.md R407 to R410). -/

namespace Sys2Proof.Machine

/-! ### Several writes to the registers -/

/-- Two writes to different registers. -/
def WritesApart (v w : Byte × List Byte) : Prop :=
  v.1.toNat + v.2.length ≤ w.1.toNat ∨ w.1.toNat + w.2.length ≤ v.1.toNat

/-- Bytes written from several addresses on, one write after another. -/
def Chip.writeAll (c : Chip) : List (Byte × List Byte) → Chip
  | [] => c
  | w :: ws => (c.writeList mcp2515 w.1.toNat w.2).writeAll ws

/-- The registers from an address on hold the bytes, in the bits that a write changes (43_can_config.md R401). -/
def Chip.Holds (c : Chip) (a : Nat) (vs : List Byte) : Prop :=
  ∀ (i : Nat) (hi : i < vs.length) (j : Nat), (writableBits (a + i)).getLsbD j = true →
    (c.cell (a + i)).getLsbD j = vs[i].getLsbD j

theorem Chip.writeAll_append (c : Chip) : ∀ vs ws : List (Byte × List Byte),
    c.writeAll (vs ++ ws) = (c.writeAll vs).writeAll ws
  | [], _ => rfl
  | v :: vs, ws => Chip.writeAll_append (c.writeList mcp2515 v.1.toNat v.2) vs ws

@[simp] theorem Chip.inConfigMode_writeList (c : Chip) : ∀ (vs : List Byte) (a : Nat),
    (c.writeList mcp2515 a vs).inConfigMode mcp2515 = c.inConfigMode mcp2515
  | [], _ => rfl
  | v :: vs, a => by
    rw [Chip.writeList, Chip.inConfigMode_writeList (c.writeAt mcp2515 a v) vs, Chip.inConfigMode_writeAt]

@[simp] theorem Chip.inConfigMode_writeAll (c : Chip) : ∀ ws : List (Byte × List Byte),
    (c.writeAll ws).inConfigMode mcp2515 = c.inConfigMode mcp2515
  | [] => rfl
  | w :: ws => by
    rw [Chip.writeAll, Chip.inConfigMode_writeAll (c.writeList mcp2515 w.1.toNat w.2) ws, Chip.inConfigMode_writeList]

/-- A write puts no frame on the bus. -/
theorem Chip.onBus_writeAt_of_none {c : Chip} (h : c.onBus = none) (m : ChipTable) (a : Nat) (v : Byte) :
    (c.writeAt m a v).onBus = none := by
  unfold Chip.writeAt
  split
  · exact h
  · rw [Chip.dropAborted_onBus, h]
    rfl

theorem Chip.onBus_writeList_of_none (m : ChipTable) : ∀ (vs : List Byte) {c : Chip} (a : Nat), c.onBus = none →
    (c.writeList m a vs).onBus = none
  | [], _, _, h => h
  | _ :: vs, _, a, h => Chip.onBus_writeList_of_none m vs (a + 1) (Chip.onBus_writeAt_of_none h m a _)

theorem Chip.onBus_writeAll_of_none : ∀ (ws : List (Byte × List Byte)) {c : Chip}, c.onBus = none →
    (c.writeAll ws).onBus = none
  | [], _, h => h
  | w :: ws, _, h => Chip.onBus_writeAll_of_none ws (Chip.onBus_writeList_of_none mcp2515 w.2 w.1.toNat h)

theorem Chip.cell_writeAll_other : ∀ (ws : List (Byte × List Byte)) (c : Chip) {b : Nat},
    (∀ w ∈ ws, b < w.1.toNat ∨ w.1.toNat + w.2.length ≤ b) → (c.writeAll ws).cell b = c.cell b
  | [], _, _, _ => rfl
  | w :: ws, c, _, h => by
    obtain ⟨hw, hws⟩ := List.forall_mem_cons.mp h
    rw [Chip.writeAll, Chip.cell_writeAll_other ws _ hws, Chip.cell_writeList_other _ _ _ _ _ hw]

/-- In configuration mode the chip takes every write. -/
theorem Chip.holds_writeList {c : Chip} (hc : c.inConfigMode mcp2515 = true) {a : Nat} {vs : List Byte}
    (ha : a + vs.length ≤ 128) : (c.writeList mcp2515 a vs).Holds a vs := by
  intro i hi j hj
  have hnot : c.ignores mcp2515 (a + i) = false := by
    rw [Chip.ignores_mcp2515 c (by omega), hc, Bool.not_true, Bool.and_false]
  rw [Chip.cell_writeList vs c a i hi, if_pos ⟨by omega, hnot⟩, mcp2515_info (by omega), getLsbD_mergeBits]
  exact if_pos hj

theorem Chip.Holds.of_cells {c d : Chip} {a : Nat} {vs : List Byte} (h : c.Holds a vs)
    (hd : ∀ i < vs.length, d.cell (a + i) = c.cell (a + i)) : d.Holds a vs := fun i hi j hj => by
  rw [hd i hi, h i hi j hj]

/-- Each of several writes to different registers stands after all of them. -/
theorem Chip.holds_writeAll : ∀ (ws : List (Byte × List Byte)) {c : Chip}, c.inConfigMode mcp2515 = true →
    ws.Pairwise WritesApart → (∀ w ∈ ws, w.1.toNat + w.2.length ≤ 128) →
    ∀ w ∈ ws, (c.writeAll ws).Holds w.1.toNat w.2
  | v :: vs, c, hc, hapart, hmap, w, hw => by
    obtain ⟨hv, hvs⟩ := List.pairwise_cons.mp hapart
    obtain ⟨hvmap, hvsmap⟩ := List.forall_mem_cons.mp hmap
    have hc' : (c.writeList mcp2515 v.1.toNat v.2).inConfigMode mcp2515 = true := by simpa using hc
    rcases List.mem_cons.mp hw with rfl | hw
    · refine (Chip.holds_writeList hc hvmap).of_cells fun i hi => Chip.cell_writeAll_other vs _ fun x hx => ?_
      have := hv x hx
      unfold WritesApart at this
      omega
    · exact Chip.holds_writeAll vs hc' hvs hvsmap w hw

/-! ### The masks and the filters (43_can_config.md R407, R408) -/

/-- The writes of CAN_SET_MASK. -/
def maskBytes (m0 m1 m2 m3 : Byte) : List (Byte × List Byte) :=
  [(0x20, [nativeMask m0, nativeMask m1, nativeMask m2, nativeMask m3]),
    (0x24, [nativeMask m0, nativeMask m1, nativeMask m2, nativeMask m3])]

/-- The writes of CAN_SET_CODE. -/
def codeBytes (c0 c1 c2 c3 : Byte) : List (Byte × List Byte) :=
  [(0x00, [c0, c1 &&& 0xF7, c2, c3]), (0x04, [c0, c1 ||| 0x08, c2, c3]), (0x08, [c0, c1 &&& 0xF7, c2, c3]),
    (0x10, [c0, c1 ||| 0x08, c2, c3]), (0x14, [c0, c1 &&& 0xF7, c2, c3]), (0x18, [c0, c1 ||| 0x08, c2, c3])]

/-- The reference chip, nothing scheduled outside, and the wires as given. -/
structure Quiet (p : Pins) (s : State) : Prop where
  table : s.cfg.chip = mcp2515
  during : s.during = []
  pins : s.pins = p

theorem Quiet.letOutside {p : Pins} {s : State} (h : Quiet p s) : Quiet p (letOutside s) :=
  (letOutside_of_nil h.during).symm ▸ h

/-- Work on the bus schedules nothing and moves no wire. -/
theorem Quiet.busClosed (p : Pins) : BusClosed fun s t => Quiet p s → Quiet p t where
  trans h k hs := k (h hs)
  updates _ _ _ h := ⟨h.table, h.during, h.pins⟩
  letOutside _ := .letOutside
  txnReset _ h := ⟨h.letOutside.table, h.letOutside.during, h.letOutside.pins⟩
  txnRead _ _ h := ⟨h.letOutside.table, h.letOutside.during, h.letOutside.pins⟩
  txnWrite _ _ _ h := ⟨h.letOutside.table, h.letOutside.during, h.letOutside.pins⟩
  txnBitModify _ _ _ _ h := ⟨h.letOutside.table, h.letOutside.during, h.letOutside.pins⟩
  txnReadStatus _ h := ⟨h.letOutside.table, h.letOutside.during, h.letOutside.pins⟩
  txnLoadTx _ _ _ h := ⟨h.letOutside.table, h.letOutside.during, h.letOutside.pins⟩
  txnReadRx _ _ h := ⟨h.letOutside.table, h.letOutside.during, h.letOutside.pins⟩

section
variable {p : Pins} {s : State}

theorem Quiet.txnWrite (h : Quiet p s) (a : Byte) (ds : List Byte) : Quiet p (txnWrite a ds s) :=
  (busClosed p).txnWrite a ds s h

theorem Quiet.txnWrite_chip (h : Quiet p s) (a : Byte) (ds : List Byte) :
    (Machine.txnWrite a ds s).chip = s.chip.writeList mcp2515 a.toNat ds := by
  rw [Machine.txnWrite_chip, letOutside_of_nil h.during, h.table]

/-- Several WRITE transactions, in order. -/
def txnWrites : List (Byte × List Byte) → State → State
  | [], s => s
  | w :: ws, s => txnWrites ws (Machine.txnWrite w.1 w.2 s)

theorem Quiet.txnWrites_chip : ∀ (ws : List (Byte × List Byte)) {s : State}, Quiet p s →
    (txnWrites ws s).chip = s.chip.writeAll ws
  | [], _, _ => rfl
  | w :: ws, s, h => by rw [txnWrites, Quiet.txnWrites_chip ws (h.txnWrite _ _), h.txnWrite_chip, Chip.writeAll]

theorem Quiet.maskWrites_chip (h : Quiet p s) (m0 m1 m2 m3 : Byte) :
    (maskWrites m0 m1 m2 m3 s).chip = s.chip.writeAll (maskBytes m0 m1 m2 m3) := by
  rw [← Quiet.txnWrites_chip _ h]
  simp only [maskWrites, h.table]
  rfl

theorem Quiet.codeWrites_chip (h : Quiet p s) (c0 c1 c2 c3 : Byte) :
    (codeWrites c0 c1 c2 c3 s).chip = s.chip.writeAll (codeBytes c0 c1 c2 c3) := by
  rw [← Quiet.txnWrites_chip _ h]
  simp only [codeWrites, h.table]
  rfl

end

/-! ### What a filter and a mask compare (43_can_config.md R409) -/

section
variable {c : Chip}

/-- A register all of whose bits a write changes holds its byte. -/
theorem Chip.Holds.cell {a : Nat} {vs : List Byte} (h : c.Holds a vs) (i : Nat) (hi : i < vs.length)
    (hw : writableBits (a + i) = 0xFF) : c.cell (a + i) = vs[i] :=
  BitVec.eq_of_getLsbD_eq fun j hj => h i hi j (by rw [hw]; revert j; decide)

/-- Of the registers of a filter or a mask, a write changes all bits but some of SIDL (43_can_config.md R401). -/
theorem writableBits_id : ∀ a ∈ mcp2515.rxf.toList ++ mcp2515.rxm.toList,
    writableBits a.toNat = 0xFF ∧ (∀ j ∈ [0, 1, 5, 6, 7], (writableBits (a.toNat + 1)).getLsbD j = true) ∧
      writableBits (a.toNat + 2) = 0xFF ∧ writableBits (a.toNat + 3) = 0xFF ∧ a.toNat + 3 < 128 := by decide

/-- The fields of a filter or a mask (43_can_config.md R401). -/
structure Chip.HoldsId (c : Chip) (a v0 v1 v2 v3 : Byte) : Prop where
  sidh : c.reg a = v0
  sid : mcp2515.sidBits (c.reg (a + 1)) = mcp2515.sidBits v1
  eid : mcp2515.eidBits (c.reg (a + 1)) = mcp2515.eidBits v1
  eid8 : c.reg (a + 2) = v2
  eid0 : c.reg (a + 3) = v3

theorem Chip.reg_add {a : Byte} {i : Nat} (h : a.toNat + i < 128) :
    c.reg (a + BitVec.ofNat 8 i) = c.cell (a.toNat + i) := by
  rw [Chip.reg_eq, BitVec.toNat_add, BitVec.toNat_ofNat]
  congr 1
  omega

theorem Chip.Holds.holdsId {a v0 v1 v2 v3 : Byte} (h : c.Holds a.toNat [v0, v1, v2, v3])
    (ha : a ∈ mcp2515.rxf.toList ++ mcp2515.rxm.toList) : c.HoldsId a v0 v1 v2 v3 := by
  obtain ⟨w0, w1, w2, w3, hmap⟩ := writableBits_id a ha
  have h1 : c.reg (a + 1) = c.cell (a.toNat + 1) := Chip.reg_add (i := 1) (by omega)
  have h2 : c.reg (a + 2) = c.cell (a.toNat + 2) := Chip.reg_add (i := 2) (by omega)
  have h3 : c.reg (a + 3) = c.cell (a.toNat + 3) := Chip.reg_add (i := 3) (by omega)
  have bit : ∀ j ∈ [0, 1, 5, 6, 7], (c.reg (a + 1)).getLsbD j = v1.getLsbD j := fun j hj =>
    h1 ▸ h 1 (by simp) j (w1 j hj)
  exact {
    sidh := h.cell 0 (by simp) w0
    sid := BitVec.eq_of_getLsbD_eq fun j hj => by
      have := bit (5 + j) (by revert j; decide)
      simpa [ChipTable.sidBits, hj] using this
    eid := BitVec.eq_of_getLsbD_eq fun j hj => by
      have := bit j (by revert j; decide)
      simpa [ChipTable.eidBits, hj] using this
    eid8 := h2.trans (h.cell 2 (by simp) w2)
    eid0 := h3.trans (h.cell 3 (by simp) w3) }

/-- EXIDE of a filter (43_can_config.md R401). -/
theorem Chip.Holds.exide {a v0 v1 v2 v3 : Byte} (h : c.Holds a.toNat [v0, v1, v2, v3]) (ha : a ∈ mcp2515.rxf.toList) :
    (c.reg (a + 1)).getLsbD 3 = v1.getLsbD 3 := by
  have hfilter : ∀ a ∈ mcp2515.rxf.toList, (writableBits (a.toNat + 1)).getLsbD 3 = true ∧ a.toNat + 1 < 128 := by
    decide
  obtain ⟨hw, hmap⟩ := hfilter a ha
  have h1 : c.reg (a + 1) = c.cell (a.toNat + 1) := Chip.reg_add hmap
  exact h1 ▸ h 1 (by simp) 3 hw

/-- A legacy mask byte of all ones compares nothing (43_can_config.md R406, R407). -/
theorem nativeMask_full : nativeMask 0xFF = 0 := rfl

theorem maskedEqual_zero {w : Nat} (filter value : BitVec w) : maskedEqual filter 0 value = true := by
  simp [maskedEqual]

/-- The upper 11 bits of a frame's identifier, which are all of a standard one (43_can_config.md R410). -/
def upperId (f : CanFrame) : BitVec 11 := if f.ext then f.id.extractLsb' 18 11 else f.id.extractLsb' 0 11

theorem extractLsb'_extractLsb' {w start len i n : Nat} (h : i + n ≤ len) (x : BitVec w) :
    (x.extractLsb' start len).extractLsb' i n = x.extractLsb' (start + i) n := by
  ext j hj
  simp [show i + j < len by omega, Nat.add_assoc]

/-- The image holds the upper 11 bits in SIDH and in SIDL 7:5, whatever the kind of the frame (44_can_tx.md R457). -/
theorem idImage_upper (f : CanFrame) : ∃ (low : BitVec 5) (rest : List Byte), idImage f.ext f.id =
    (upperId f).extractLsb' 3 8 :: ((upperId f).extractLsb' 0 3 ++ low) :: rest := by
  unfold upperId idImage
  cases f.ext with
  | false =>
    refine ⟨0, [0x00, 0x00], ?_⟩
    rw [if_neg (by simp), if_neg (by simp), sidl_standard]
    simp
  | true =>
    refine ⟨(0b010 : BitVec 3) ++ f.id.extractLsb' 16 2, [f.id.extractLsb' 8 8, f.id.extractLsb' 0 8], ?_⟩
    rw [if_pos rfl, if_pos rfl, sidl_extended, BitVec.append_assoc, extractLsb'_extractLsb' (by decide),
      extractLsb'_extractLsb' (by decide)]
    simp

/-- A code and a mask, both in legacy form, agree with the upper 11 bits of an identifier in the bits compared. -/
def upperAgrees (c0 c1 m0 m1 : Byte) (id : BitVec 11) : Bool :=
  maskedEqual c0 (nativeMask m0) (id.extractLsb' 3 8) &&
    maskedEqual (mcp2515.sidBits c1) (mcp2515.sidBits (nativeMask m1)) (id.extractLsb' 0 3)

/-- A mask that leaves the extended-only bits out compares the kind of the frame and the upper 11 bits of its
identifier (43_can_config.md R409, R410). -/
theorem Chip.accepts_of_sidMask {a b v0 v1 v2 v3 m0 m1 : Byte} (hf : c.Holds a.toNat [v0, v1, v2, v3])
    (hm : c.Holds b.toNat [nativeMask m0, nativeMask m1, nativeMask 0xFF, nativeMask 0xFF])
    (ha : a ∈ mcp2515.rxf.toList) (hb : b ∈ mcp2515.rxm.toList)
    (heid : mcp2515.eidBits (nativeMask m1) = 0) (f : CanFrame) (n : Nat) :
    c.accepts mcp2515 a b f n = (v1.getLsbD 3 == f.ext && upperAgrees v0 v1 m0 m1 (upperId f)) := by
  have filter := hf.holdsId (List.mem_append_left _ ha)
  have mask := hm.holdsId (List.mem_append_right _ hb)
  have hex : (c.reg (a + 1)).getLsbD ((3 : Fin 8) : Nat) = v1.getLsbD 3 := hf.exide ha
  obtain ⟨low, rest, himage⟩ := idImage_upper f
  simp only [Chip.accepts, upperAgrees, mcp2515_exide, filter.sidh, filter.sid, mask.sidh, mask.sid, mask.eid,
    mask.eid8, mask.eid0, heid, nativeMask_full, maskedEqual_zero, hex, himage]
  simp [show ((upperId f).extractLsb' 0 3 ++ low).extractLsb' 5 3 = (upperId f).extractLsb' 0 3 from
    BitVec.extractLsb'_append_eq_left, Bool.and_assoc]

/-- EXIDE is none of the bits of the identifier (43_can_config.md R401, R408). -/
theorem upperAgrees_exide (c0 c1 m0 m1 : Byte) (id : BitVec 11) :
    upperAgrees c0 (c1 &&& 0xF7) m0 m1 id = upperAgrees c0 c1 m0 m1 id ∧
      upperAgrees c0 (c1 ||| 0x08) m0 m1 id = upperAgrees c0 c1 m0 m1 id := by
  have hsid : ∀ x : Byte, mcp2515.sidBits (x &&& 0xF7) = mcp2515.sidBits x ∧
      mcp2515.sidBits (x ||| 0x08) = mcp2515.sidBits x := by decide
  obtain ⟨hstandard, hextended⟩ := hsid c1
  rw [upperAgrees, upperAgrees, upperAgrees, hstandard, hextended]
  exact ⟨rfl, rfl⟩

/-- Of a pair of filters with one code, one takes the standard frames and the other the extended ones
(43_can_config.md R408). -/
theorem Chip.accepts_pair {a a' b c0 c1 c2 c3 m0 m1 : Byte} (hstandard : c.Holds a.toNat [c0, c1 &&& 0xF7, c2, c3])
    (hextended : c.Holds a'.toNat [c0, c1 ||| 0x08, c2, c3])
    (hm : c.Holds b.toNat [nativeMask m0, nativeMask m1, nativeMask 0xFF, nativeMask 0xFF])
    (ha : a ∈ mcp2515.rxf.toList) (ha' : a' ∈ mcp2515.rxf.toList) (hb : b ∈ mcp2515.rxm.toList)
    (heid : mcp2515.eidBits (nativeMask m1) = 0) (f : CanFrame) (n : Nat) :
    (c.accepts mcp2515 a b f n || c.accepts mcp2515 a' b f n) = upperAgrees c0 c1 m0 m1 (upperId f) := by
  obtain ⟨hfs, hfe⟩ := upperAgrees_exide c0 c1 m0 m1 (upperId f)
  have hexide : (c1 &&& 0xF7).getLsbD 3 = false := by simp
  have hexide' : (c1 ||| 0x08).getLsbD 3 = true := by simp
  rw [Chip.accepts_of_sidMask hstandard hm ha hb heid, Chip.accepts_of_sidMask hextended hm ha' hb heid, hfs, hfe,
    hexide, hexide']
  cases f.ext <;> simp

/-- With a mask that leaves the extended-only bits out, the upper 11 bits of an identifier alone decide whether each
buffer accepts a frame (43_can_config.md R409, R410). -/
theorem Chip.accepts_of_setFilters {m0 m1 c0 c1 c2 c3 : Byte}
    (h : ∀ w ∈ maskBytes m0 m1 0xFF 0xFF ++ codeBytes c0 c1 c2 c3, c.Holds w.1.toNat w.2)
    (hm1 : m1.extractLsb' 0 2 = 3) (f : CanFrame) (n : Nat) :
    c.accepts0 mcp2515 f n = upperAgrees c0 c1 m0 m1 (upperId f) ∧
      c.accepts1 mcp2515 f n = upperAgrees c0 c1 m0 m1 (upperId f) := by
  have heid : mcp2515.eidBits (nativeMask m1) = 0 :=
    (by decide : ∀ m : Byte, m.extractLsb' 0 2 = 3 → mcp2515.eidBits (nativeMask m) = 0) m1 hm1
  simp only [maskBytes, codeBytes, List.cons_append, List.nil_append, List.forall_mem_cons] at h
  obtain ⟨mask0, mask1, filter0, filter1, filter2, filter3, filter4, filter5, -⟩ := h
  have pair0 := Chip.accepts_pair filter0 filter1 mask0 (by decide) (by decide) (by decide) heid f n
  have pair1 := Chip.accepts_pair filter2 filter3 mask1 (by decide) (by decide) (by decide) heid f n
  have pair2 := Chip.accepts_pair filter4 filter5 mask1 (by decide) (by decide) (by decide) heid f n
  refine ⟨pair0, ?_⟩
  have hsplit : c.accepts1 mcp2515 f n = ((c.accepts mcp2515 0x08 0x24 f n || c.accepts mcp2515 0x10 0x24 f n) ||
      (c.accepts mcp2515 0x14 0x24 f n || c.accepts mcp2515 0x18 0x24 f n)) := Bool.or_assoc _ _ _
  rw [hsplit, pair1, pair2, Bool.or_self]

end

/-- The masks and the filters lie apart from one another, in the map. -/
theorem maskBytes_codeBytes_apart (m0 m1 m2 m3 c0 c1 c2 c3 : Byte) :
    (maskBytes m0 m1 m2 m3 ++ codeBytes c0 c1 c2 c3).Pairwise WritesApart ∧
      ∀ w ∈ maskBytes m0 m1 m2 m3 ++ codeBytes c0 c1 c2 c3, w.1.toNat + w.2.length ≤ 128 := by
  simp [maskBytes, codeBytes, WritesApart]

/-- After a mask that leaves the extended-only bits out and any code, in configuration mode, frames of the same upper 11
bits are accepted alike (43_can_config.md R410). -/
theorem accepted_alike {s t u : State} {m0 m1 m2 m3 c0 c1 c2 c3 : Byte} (hm : s.cfg.chip = mcp2515) (hd : s.during = [])
    (hconf : s.chip.inConfigMode mcp2515 = true) (hm1 : m1.extractLsb' 0 2 = 3) (hm2 : m2 = 0xFF) (hm3 : m3 = 0xFF)
    (hst : exec (.canSetMask m0 m1 m2 m3) s = .next t) (htu : exec (.canSetCode c0 c1 c2 c3) t = .next u)
    (f : CanFrame) (n : Nat) :
    u.chip.accepts0 mcp2515 f n = upperAgrees c0 c1 m0 m1 (upperId f) ∧
      u.chip.accepts1 mcp2515 f n = upperAgrees c0 c1 m0 m1 (upperId f) := by
  cases hst
  cases htu
  subst hm2 hm3
  have hquiet : Quiet s.pins s := ⟨hm, hd, rfl⟩
  have hmasked := (Quiet.busClosed s.pins).maskWrites m0 m1 0xFF 0xFF s hquiet
  have hquiet' : Quiet s.pins (respond .ok [] (maskWrites m0 m1 0xFF 0xFF s)) :=
    (Quiet.busClosed s.pins).updates _ _ _ hmasked
  have hchip : (codeWrites c0 c1 c2 c3 (respond .ok [] (maskWrites m0 m1 0xFF 0xFF s))).chip =
      s.chip.writeAll (maskBytes m0 m1 0xFF 0xFF ++ codeBytes c0 c1 c2 c3) := by
    rw [hquiet'.codeWrites_chip, respond_chip, hquiet.maskWrites_chip, Chip.writeAll_append]
  obtain ⟨hapart, hmap⟩ := maskBytes_codeBytes_apart m0 m1 0xFF 0xFF c0 c1 c2 c3
  rw [respond_chip, hchip]
  exact Chip.accepts_of_setFilters (Chip.holds_writeAll _ hconf hapart hmap) hm1 f n

end Sys2Proof.Machine
end


section
/-! PROOF. CAN_INIT with nothing happening outside: the chip that its writes leave, and what the default self-test finds
on wires that are sound or stuck (43_can_config.md R420, R421, R423). -/

namespace Sys2Proof.Machine

/-! ### The chip before the self-test -/

/-- What CAN_INIT writes before its self-test and the self-test leaves alone: the masks, the filters and RXB0CTRL. -/
def setUpBytes : List (Byte × List Byte) :=
  maskBytes 0xFF 0xFF 0xFF 0xFF ++ codeBytes 0x00 0x00 0x00 0x00 ++ [(0x60, [0x04])]

/-- Registers that CAN_INIT leaves as its RESET does: CANSTAT, CANCTRL, CNF3 to CNF1 and TXBsCTRL. -/
def resetRegisters : List Nat := [0x0E, 0x0F, 0x28, 0x29, 0x2A, 0x30, 0x40, 0x50]

/-- The registers that the self-test writes: BFPCTRL, CANINTE and CANINTF. -/
def testRegisters : List Byte := [0x0C, 0x2B, 0x2C]

/-- The chip as CAN_INIT sets it up: the mode, the bit timing and the slots as RESET leaves them, and the registers
written. -/
structure Chip.SetUp (c : Chip) : Prop where
  onBus : c.onBus = none
  asReset : ∀ a ∈ resetRegisters, chipResetValue a = some (c.cell a)
  written : ∀ w ∈ setUpBytes, c.Holds w.1.toNat w.2

theorem Chip.setUp_writeAll_reset (c : Chip) (n : Nat) : ((c.reset mcp2515 n).writeAll setUpBytes).SetUp where
  onBus := Chip.onBus_writeAll_of_none _ (Chip.reset_onBus c mcp2515 n)
  asReset a ha := by
    have hapart : ∀ a ∈ resetRegisters,
        (∀ w ∈ setUpBytes, a < w.1.toNat ∨ w.1.toNat + w.2.length ≤ a) ∧ (chipResetValue a).isSome := by decide
    obtain ⟨hother, hsome⟩ := hapart a ha
    obtain ⟨v, hv⟩ := Option.isSome_iff_exists.mp hsome
    rw [Chip.cell_writeAll_other _ _ hother, Chip.cell_reset_mcp2515 c n hv, hv]
  written := Chip.holds_writeAll setUpBytes (Chip.inConfigMode_reset c n) (by unfold WritesApart; decide) (by decide)

/-- The set-up lies apart from what the self-test writes. -/
theorem Chip.SetUp.writeOne {c : Chip} (h : c.SetUp) {a : Byte} (ha : a ∈ testRegisters) (v : Byte) :
    (c.writeList mcp2515 a.toNat [v]).SetUp where
  onBus := Chip.onBus_writeList_of_none _ _ _ h.onBus
  asReset b hb := by
    have hapart : ∀ a ∈ testRegisters, ∀ b ∈ resetRegisters,
        b < a.toNat ∨ a.toNat + 1 ≤ b := by decide
    rw [Chip.cell_writeList_other [v] c _ _ _ (hapart a ha b hb)]
    exact h.asReset b hb
  written w hw := by
    have hapart : ∀ a ∈ testRegisters, ∀ w ∈ setUpBytes, ∀ i < w.2.length,
        w.1.toNat + i < a.toNat ∨ a.toNat + 1 ≤ w.1.toNat + i := by decide
    exact (h.written w hw).of_cells fun i hi => Chip.cell_writeList_other [v] c _ _ _ (hapart a ha w hw i hi)

/-! ### The state during the self-test -/

/-- The self-test under way, on given wires, with given values of the registers that it writes. -/
structure InSelfTest (p : Pins) (bfpctrl caninte canintf : Byte) (s : State) : Prop where
  quiet : Quiet p s
  setUp : s.chip.SetUp
  bfpctrl : s.chip.reg 0x0C = bfpctrl
  caninte : s.chip.reg 0x2B = caninte
  canintf : s.chip.reg 0x2C = canintf

/-- A register after a write of one byte to a register that is no configuration register. -/
theorem Chip.reg_writeOne (c : Chip) {a : Byte} (ha : a.toNat < 128) (hconf : configOnly a.toNat = false) (v b : Byte) :
    (c.writeList mcp2515 a.toNat [v]).reg b =
      if a = b then mergeBits (writableBits a.toNat) (c.reg a) v else c.reg b := by
  split
  next hab =>
    subst hab
    have hnot : c.ignores mcp2515 a.toNat = false := by rw [Chip.ignores_mcp2515 c ha, hconf, Bool.false_and]
    have hcell := Chip.cell_writeList [v] c a.toNat 0 Nat.one_pos
    rw [Nat.add_zero, if_pos ⟨ha, hnot⟩, mcp2515_info ha] at hcell
    exact hcell
  next hab =>
    refine Chip.cell_writeList_other [v] c mcp2515 _ _ ?_
    have : a.toNat ≠ b.toNat := fun h => hab (BitVec.eq_of_toNat_eq h)
    simp only [List.length_singleton]
    omega

section
variable {p : Pins} {b e f : Byte} {s t : State}

/-- A write of one byte to one of the three registers. -/
theorem InSelfTest.writeOne (h : InSelfTest p b e f s) (ht : Quiet p t) {a v : Byte} (ha : a ∈ testRegisters)
    (hchip : t.chip = s.chip.writeList mcp2515 a.toNat [v]) :
    InSelfTest p (if a = 0x0C then mergeBits 0x3F b v else b) (if a = 0x2B then v else e)
      (if a = 0x2C then v else f) t := by
  have hreg : ∀ a ∈ testRegisters, a.toNat < 128 ∧ configOnly a.toNat = false := by decide
  obtain ⟨hmap, hconf⟩ := hreg a ha
  have heach := Chip.reg_writeOne s.chip hmap hconf v
  refine ⟨ht, hchip ▸ h.setUp.writeOne ha v, ?_, ?_, ?_⟩
  · rw [hchip, heach, h.bfpctrl]
    split
    next hab => subst hab; rw [h.bfpctrl]; rfl
    next => rfl
  · rw [hchip, heach, h.caninte]
    split
    next hab => subst hab; exact mergeBits_full _ _
    next => rfl
  · rw [hchip, heach, h.canintf]
    split
    next hab => subst hab; exact mergeBits_full _ _
    next => rfl

theorem InSelfTest.writeBfpctrl (h : InSelfTest p b e f s) (v : Byte) :
    InSelfTest p (mergeBits 0x3F b v) e f (txnWrite 0x0C [v] s) :=
  h.writeOne (a := 0x0C) (h.quiet.txnWrite _ _) (by decide) (h.quiet.txnWrite_chip _ _)

theorem InSelfTest.writeCaninte (h : InSelfTest p b e f s) (v : Byte) : InSelfTest p b v f (txnWrite 0x2B [v] s) :=
  h.writeOne (a := 0x2B) (h.quiet.txnWrite _ _) (by decide) (h.quiet.txnWrite_chip _ _)

theorem InSelfTest.modifyCanintf (h : InSelfTest p b e f s) (k d : Byte) :
    InSelfTest p b e ((f &&& ~~~k) ||| (d &&& k)) (txnBitModify 0x2C k d s) := by
  refine h.writeOne ((Quiet.busClosed p).txnBitModify _ _ _ s h.quiet) (a := 0x2C) (by decide) ?_
  rw [txnBitModify_chip, letOutside_of_nil h.quiet.during, h.quiet.table, Chip.bitModify_eq_writeList, h.canintf]
  rfl

/-! ### A stage -/

/-- What the chip drives on its pins is what a stage expects (43_can_config.md R401, R421). -/
def DrivesAsExpected (b e f : Byte) (g : SelfTestStage) : Prop :=
  (b.getLsbD 2 && (if b.getLsbD 0 then f.getLsbD 0 else !b.getLsbD 4)) = g.rx0 ∧
    (b.getLsbD 3 && (if b.getLsbD 1 then f.getLsbD 1 else !b.getLsbD 5)) = g.rx1 ∧ ((f &&& e) != 0) = g.err

/-- The wires show a stage the levels it expects, when the chip drives those. -/
def Pins.shows (p : Pins) (g : SelfTestStage) : Bool :=
  p.rx0.level g.rx0 == g.rx0 && p.rx1.level g.rx1 == g.rx1 && p.err.level g.err == g.err

theorem samplePin_of_quiet (h : Quiet p s) (x : Pin) : samplePin x s = (s.pinNow x, s) := by
  rw [samplePin, letOutside_of_nil h.during]

theorem InSelfTest.testStage {g : SelfTestStage} (h : InSelfTest p b e f (testTxns g.txns s))
    (hg : DrivesAsExpected b e f g) : testStage g s = (p.shows g, testTxns g.txns s) := by
  obtain ⟨hrx0, hrx1, herr⟩ := hg
  have level0 : (testTxns g.txns s).pinNow .rx0 = p.rx0.level g.rx0 := by
    rw [State.pinNow, h.quiet.pins, h.quiet.table, Chip.rxPin_eq, h.bfpctrl, h.canintf]
    exact congrArg _ hrx0
  have level1 : (testTxns g.txns s).pinNow .rx1 = p.rx1.level g.rx1 := by
    rw [State.pinNow, h.quiet.pins, h.quiet.table, Chip.rxPin_eq, h.bfpctrl, h.canintf]
    exact congrArg _ hrx1
  have levelErr : (testTxns g.txns s).pinNow .err = p.err.level g.err := by
    rw [State.pinNow, h.quiet.pins, h.quiet.table, Chip.errPin, mcp2515_canintf, mcp2515_caninte, h.canintf, h.caninte]
    exact congrArg _ herr
  simp only [Machine.testStage, samplePin_of_quiet h.quiet, level0, level1, levelErr, Pins.shows]

theorem testStages_cons {g : SelfTestStage} {gs : List SelfTestStage} {u : State} {x y : Bool}
    (hg : testStage g s = (x, t)) (hgs : testStages gs t = (y, u)) : testStages (g :: gs) s = (x && y, u) := by
  simp only [testStages, hg, hgs]

/-- The default self-test: what each stage makes the chip drive is what it expects, so that the wires decide
(43_can_config.md R421). -/
theorem InSelfTest.defaultSelfTest (h : InSelfTest p 0x00 0x00 0x00 s) :
    ∃ t, InSelfTest p 0x3C 0x00 0x00 t ∧
      testStages defaultSelfTest.toList s = (defaultSelfTest.toList.all p.shows, t) := by
  have h1 := h.writeBfpctrl 0x2C
  have h2 := h1.writeBfpctrl 0x1C
  have h3 := ((h2.writeBfpctrl 0x3C).writeCaninte 0x20).modifyCanintf 0x20 0x20
  have h4 := (h3.modifyCanintf 0x20 0x00).writeCaninte 0x00
  refine ⟨_, h4, ?_⟩
  refine testStages_cons (InSelfTest.testStage h1 (by unfold DrivesAsExpected; decide)) ?_
  refine testStages_cons (InSelfTest.testStage h2 (by unfold DrivesAsExpected; decide)) ?_
  refine testStages_cons (InSelfTest.testStage h3 (by unfold DrivesAsExpected; decide)) ?_
  exact testStages_cons (InSelfTest.testStage h4 (by unfold DrivesAsExpected; decide)) rfl

/-- CAN_INIT up to its write of RXB0CTRL. -/
def setUpWrites (s : State) : State :=
  Machine.txnWrite 0x60 [0x04] (codeWrites 0x00 0x00 0x00 0x00 (maskWrites 0xFF 0xFF 0xFF 0xFF (txnReset s)))

theorem Quiet.initWrites_eq (h : Quiet p s) : initWrites s = Machine.txnWrite 0x2B [0x00] (setUpWrites s) := by
  simp only [initWrites, h.table]
  rfl

/-- With the chip set up, the self-test's registers are zero as after RESET. -/
theorem Quiet.setUpWrites (h : Quiet p s) : InSelfTest p 0x00 0x00 0x00 (setUpWrites s) := by
  have hreset := (busClosed p).txnReset s h
  have hmasks := (busClosed p).maskWrites 0xFF 0xFF 0xFF 0xFF _ hreset
  have hcodes := (busClosed p).codeWrites 0x00 0x00 0x00 0x00 _ hmasks
  have hchip : (Machine.setUpWrites s).chip = (s.chip.reset mcp2515 s.draws).writeAll setUpBytes := by
    rw [Machine.setUpWrites, hcodes.txnWrite_chip, hmasks.codeWrites_chip, hreset.maskWrites_chip, txnReset_chip,
      letOutside_of_nil h.during, h.table, setUpBytes, Chip.writeAll_append, Chip.writeAll_append]
    rfl
  have reg : ∀ a ∈ testRegisters, (Machine.setUpWrites s).chip.reg a = 0x00 := fun a ha => by
    have hzero : ∀ a ∈ testRegisters,
        (∀ w ∈ setUpBytes, a.toNat < w.1.toNat ∨ w.1.toNat + w.2.length ≤ a.toNat) ∧
          chipResetValue a.toNat = some 0x00 := by decide
    obtain ⟨hother, hvalue⟩ := hzero a ha
    rw [hchip, Chip.reg_eq, Chip.cell_writeAll_other _ _ hother, Chip.cell_reset_mcp2515 _ _ hvalue]
  exact ⟨hcodes.txnWrite _ _, hchip ▸ Chip.setUp_writeAll_reset _ _, reg _ (by decide), reg _ (by decide),
    reg _ (by decide)⟩

/-- CAN_INIT comes to its self-test with the chip set up and the self-test's registers zero. -/
theorem Quiet.initWrites (h : Quiet p s) : InSelfTest p 0x00 0x00 0x00 (initWrites s) :=
  h.initWrites_eq ▸ h.setUpWrites.writeCaninte 0x00

/-- CAN_INIT with the default self-test: the wires decide its answer, and the pins are restored. -/
theorem Quiet.execCanInit (h : Quiet p s) (ht : s.cfg.selfTest = Machine.defaultSelfTest) :
    ∃ t, execCanInit s = .next t ∧ InSelfTest p 0x0F s.cfg.inteAfterInit 0x00 t ∧
      t.response = some ⟨.ok, [boolByte (Machine.defaultSelfTest.toList.all p.shows)]⟩ ∧
      t.can.selfTestOk = Machine.defaultSelfTest.toList.all p.shows := by
  obtain ⟨u, hu, hstages⟩ := h.initWrites.defaultSelfTest
  have hrestore : testTxns (restoreTxns s.cfg) u =
      Machine.txnWrite 0x2B [s.cfg.inteAfterInit] (Machine.txnWrite 0x0C [0x0F] u) := by
    simp only [restoreTxns, h.table]
    rfl
  have hrestored := (hu.writeBfpctrl 0x0F).writeCaninte s.cfg.inteAfterInit
  refine ⟨_, rfl, ?_, ?_, ?_⟩
  · simp only [ht, hstages, hrestore]
    exact ⟨⟨hrestored.quiet.table, hrestored.quiet.during, hrestored.quiet.pins⟩, hrestored.setUp, hrestored.bfpctrl,
      hrestored.caninte, hrestored.canintf⟩
  · simp only [ht, hstages, respond]
  · simp only [ht, hstages, respond]

end

/-! ### The wires -/

theorem shows_of_sound {p : Pins} (h0 : p.rx0 = .sound) (h1 : p.rx1 = .sound) (he : p.err = .sound)
    (g : SelfTestStage) : p.shows g = true := by
  simp [Pins.shows, h0, h1, he, Wire.level]

/-- Each wire is expected at both levels, so that a stuck one fails a stage. -/
theorem not_all_shows_of_stuck {p : Pins} {b : Bool} (h : p.rx0 = .stuck b ∨ p.rx1 = .stuck b ∨ p.err = .stuck b) :
    defaultSelfTest.toList.all p.shows = false := by
  have hexpected : ∀ b, (∃ g ∈ defaultSelfTest.toList, (b == g.rx0) = false) ∧
      (∃ g ∈ defaultSelfTest.toList, (b == g.rx1) = false) ∧ (∃ g ∈ defaultSelfTest.toList, (b == g.err) = false) := by
    decide
  obtain ⟨⟨g0, hg0, hne0⟩, ⟨g1, hg1, hne1⟩, ⟨ge, hge, hnee⟩⟩ := hexpected b
  rw [List.all_eq_false]
  rcases h with h | h | h
  · exact ⟨g0, hg0, by simp [Pins.shows, h, Wire.level, hne0]⟩
  · exact ⟨g1, hg1, by simp [Pins.shows, h, Wire.level, hne1]⟩
  · exact ⟨ge, hge, by simp [Pins.shows, h, Wire.level, hnee]⟩

/-- Settles O48: the answer is whether the wires show every stage what it expects. -/
theorem selfTestTellsAStuckWire : Obligations.SelfTestTellsAStuckWire := by
  intro s hm ht hd
  obtain ⟨t, hexec, -, hresponse, hok⟩ := Quiet.execCanInit (p := s.pins) ⟨hm, hd, rfl⟩ ht
  refine ⟨t, hexec, fun ⟨h0, h1, he⟩ => ?sound, fun ⟨b, hb⟩ => ?stuck⟩
  case sound =>
    have hall : defaultSelfTest.toList.all s.pins.shows = true :=
      List.all_eq_true.mpr fun g _ => shows_of_sound h0 h1 he g
    rw [hall] at hresponse hok
    exact ⟨hresponse, hok⟩
  case stuck =>
    rw [not_all_shows_of_stuck hb] at hresponse hok
    exact ⟨hresponse, hok⟩

end Sys2Proof.Machine
end


section
/-! PROOF. What happens in the chip leaves the receive buffers alone, but for the arrival of a frame (60_exceptions.md
R613, 93_implementation_defined.md U3). -/

namespace Sys2Proof.Machine

section
variable {c d e : Chip} {b : Fin 2}

theorem SameBuffer.refl (c : Chip) (b : Fin 2) : SameBuffer c c b := ⟨rfl, fun _ _ => rfl⟩

theorem SameBuffer.trans (h : SameBuffer c d b) (k : SameBuffer d e b) : SameBuffer c e b :=
  ⟨k.1.trans h.1, fun j hj => (k.2 j hj).trans (h.2 j hj)⟩

/-- A register changed from inside the chip, of which neither the buffer nor its flag sees a change. -/
theorem SameBuffer.put {a v : Byte} (hflag : a = 0x2C → v.getLsbD b.val = (c.reg 0x2C).getLsbD b.val)
    (hbyte : ∀ j < 13, a.toNat = 0x61 + 0x10 * b.val + j → v = c.reg a) : SameBuffer c (c.put a v) b := by
  constructor
  · rw [Chip.rxFull_eq, Chip.rxFull_eq, Chip.reg_put]
    split
    next ha => exact hflag ha.1
    next => rfl
  · intro j hj
    have hcell := getD_setIfInBounds c.regs a.toNat (0x61 + 0x10 * b.val + j) v
    split at hcell
    next ha =>
      refine hcell.trans ((hbyte j hj ha.1).trans ?_)
      rw [Chip.reg_eq, ha.1]
    next => exact hcell

theorem SameBuffer.put_other {a : Byte} (v : Byte) (ha : a ≠ 0x2C) (hbuf : a.toNat < 0x61) :
    SameBuffer c (c.put a v) b :=
  .put (fun e => absurd e ha) (fun _ _ h => by omega)

/-- Raising a flag of CANINTF that is not the buffer's. -/
theorem SameBuffer.raise {i : Nat} (hi : i < 8) (hb : i ≠ b.val) : SameBuffer c (c.raise mcp2515 (bitByte i)) b := by
  have hintf : mcp2515.canintf.toNat = 0x2C := rfl
  refine .put (fun _ => ?_) (fun _ _ h => by omega)
  rw [BitVec.getLsbD_or, getLsbD_bitByte hi, decide_eq_false hb, Bool.or_false]
  rfl

theorem SameBuffer.recordError (c : Chip) (b : Fin 2) (flags : Byte) :
    SameBuffer c (c.recordError mcp2515 flags) b := by
  have hput : SameBuffer c (c.put 0x2D flags) b := .put_other _ (by decide) (by decide)
  unfold Chip.recordError
  split
  · exact hput.trans (.raise (i := 5) (by decide) (by omega))
  · exact hput

/-- A frame that has been sent frees its slot (44_can_tx.md R458). -/
theorem SameBuffer.complete (c : Chip) (b : Fin 2) : SameBuffer c (c.complete mcp2515) b := by
  unfold Chip.complete
  split
  · exact .refl c b
  next f _ =>
    have hctrl : ∀ x : Fin 3, mcp2515.ctrl x ≠ 0x2C ∧ (mcp2515.ctrl x).toNat < 0x61 := by decide
    have hflag : ∀ (x : Fin 3) (b : Fin 2), mcp2515.txif[x].val ≠ b.val := by decide
    obtain ⟨hne, hbuf⟩ := hctrl f.slot
    have hslot : SameBuffer c (c.put (mcp2515.ctrl f.slot)
        (c.reg (mcp2515.ctrl f.slot) &&& ~~~bitByte mcp2515.txreq.val)) b :=
      .put_other _ hne hbuf
    have hraise := hslot.trans (.raise (mcp2515.txif[f.slot]).isLt (hflag f.slot b))
    exact ⟨hraise.1, hraise.2⟩

/-- Of the receive buffers and their flags the chip changes no bit on its own (93_implementation_defined.md U3). -/
theorem SameBuffer.poke (c : Chip) (b : Fin 2) (a : Fin 128) (v : Byte) : SameBuffer c (c.poke mcp2515 a.val v) b := by
  have ha : (BitVec.ofNat 8 a.val).toNat = a.val := by rw [BitVec.toNat_ofNat]; omega
  have hput : c.poke mcp2515 a.val v =
      c.put (BitVec.ofNat 8 a.val) (mergeBits (ownBits a.val) (c.reg (BitVec.ofNat 8 a.val)) v) := by
    rw [Chip.poke, mcp2515_info a.isLt, Chip.put, Chip.reg_eq, ha]
    rfl
  rw [hput]
  refine .put (fun e => ?flag) (fun j hj e => ?byte)
  case flag =>
    have hown : ∀ b : Fin 2, (ownBits 0x2C).getLsbD b.val = false := by decide
    have haddr : a.val = 0x2C := ha.symm.trans (congrArg BitVec.toNat e)
    rw [getLsbD_mergeBits, haddr, hown b]
    rfl
  case byte =>
    have hown : ∀ b : Fin 2, ∀ j < 13, ownBits (0x61 + 0x10 * b.val + j) = 0x00 := by decide
    rw [← ha, e, hown b j hj, mergeBits_zero]

/-- Nothing that happens in the chip changes a receive buffer, but for the arrival of a frame. -/
theorem SameBuffer.act (c : Chip) (b : Fin 2) {e : ChipEvent} (he : ∀ f, e ≠ .receive f) (n : Nat) :
    SameBuffer c (c.act mcp2515 e n) b := by
  cases e with
  | receive f => exact absurd rfl (he f)
  | start =>
    unfold Chip.act Chip.start
    dsimp only
    split
    · exact .refl c b
    · exact ⟨rfl, fun _ _ => rfl⟩
  | complete => exact .complete c b
  | lose => exact ⟨rfl, fun _ _ => rfl⟩
  | enterMode => exact .put_other _ (by decide) (by decide)
  | busError flags tx rx =>
    have hflags := recordError c b (mergeBits (mcp2515.info mcp2515.eflg.toNat).own (c.reg mcp2515.eflg) flags)
    exact (hflags.trans (.put_other tx (by decide) (by decide))).trans (.put_other rx (by decide) (by decide))
  | poke a v => exact .poke c b a v

end

end Sys2Proof.Machine
end


section
/-! PROOF. The chip after CAN_INIT, and that a chip in configuration mode neither sends nor receives before the client
writes a mode (43_can_config.md R423, 70_reset_and_hazards.md R705). -/

namespace Sys2Proof.Machine

/-! ### The chip after CAN_INIT -/

section
variable {c : Chip} (h : c.SetUp)
include h

theorem Chip.SetUp.cell {a : Nat} {v : Byte} (ha : a ∈ resetRegisters)
    (hv : chipResetValue a = some v) : c.cell a = v :=
  Option.some.inj ((h.asReset a ha).symm.trans hv)

theorem Chip.SetUp.closed : c.Closed where
  mode := by
    have hstat : c.reg mcp2515.canstat = 0x80 := h.cell (by decide) rfl
    rw [Chip.inConfigMode, Chip.mode, hstat]
    rfl
  request := by
    have hctrl : c.reg 0x0F = 0x87 := h.cell (by decide) rfl
    rw [hctrl]
    rfl
  onBus := h.onBus

theorem Chip.SetUp.txreq (x : Fin 3) : c.txreq mcp2515 x = false := by
  have hctrl : c.reg (mcp2515.ctrl x) = 0x00 := h.cell (by revert x; decide) (by revert x; decide)
  rw [Chip.txreq, hctrl]
  rfl

theorem Chip.SetUp.bukt : c.bukt mcp2515 = true := by
  have hbit : (c.reg 0x60).getLsbD 2 = (0x04 : Byte).getLsbD 2 :=
    h.written (0x60, [0x04]) (by decide) 0 (by decide) 2 (by decide)
  exact hbit

/-- The masks of all ones in the legacy form compare nothing. -/
theorem Chip.SetUp.accepts (f : CanFrame) (n : Nat) :
    c.accepts0 mcp2515 f n = true ∧ c.accepts1 mcp2515 f n = true := by
  have hall : upperAgrees 0x00 0x00 0xFF 0xFF (upperId f) = true := by
    have hsid : mcp2515.sidBits 0 = 0 := by decide
    rw [upperAgrees, nativeMask_full, hsid, maskedEqual_zero, maskedEqual_zero]
    rfl
  have hfilters := Chip.accepts_of_setFilters (fun w hw => h.written w (List.mem_append_left _ hw)) (by decide) f n
  rwa [hall] at hfilters

end

/-! ### A chip in configuration mode -/

section
variable {c : Chip}

/-- A field of a byte made of two by a mask that leaves the field out. -/
theorem extractLsb'_mergeBits_old {k : Byte} {start len : Nat} (hk : k.extractLsb' start len = 0) (old new : Byte) :
    (mergeBits k old new).extractLsb' start len = old.extractLsb' start len := by
  refine BitVec.eq_of_getLsbD_eq fun i hi => ?_
  have hbit : k.getLsbD (start + i) = false := by simpa [hi] using congrArg (·.getLsbD i) hk
  rw [BitVec.getLsbD_extractLsb', BitVec.getLsbD_extractLsb', getLsbD_mergeBits, hbit]
  rfl

/-- A register changed from inside the chip, but for the mode and the mode that is requested. -/
theorem Chip.Closed.put (h : c.Closed) {a v : Byte} (hstat : a = 0x0E → v.extractLsb' 5 3 = 4)
    (hctrl : a = 0x0F → v.extractLsb' 5 3 = 4) : (c.put a v).Closed where
  mode := by
    have hmode : ((c.put a v).reg 0x0E).extractLsb' 5 3 = 4 := by
      rw [Chip.reg_put]
      split
      next ha => exact hstat ha.1
      next => exact beq_iff_eq.mp h.mode
    exact beq_iff_eq.mpr hmode
  request := by
    rw [Chip.reg_put]
    split
    next ha => exact hctrl ha.1
    next => exact h.request
  onBus := h.onBus

theorem Chip.Closed.put_other (h : c.Closed) {a : Byte} (v : Byte) (ha : a ∉ [0x0E, 0x0F]) : (c.put a v).Closed :=
  h.put (fun e => absurd (by simp [e]) ha) (fun e => absurd (by simp [e]) ha)

theorem Chip.Closed.recordError (h : c.Closed) (flags : Byte) : (c.recordError mcp2515 flags).Closed := by
  cases he : (c.reg 0x2B).getLsbD 5
  · rw [Chip.recordError_of_disabled c he]
    exact h.put_other _ (by decide)
  · rw [Chip.recordError_of_enabled c he]
    exact (h.put_other _ (by decide)).put_other _ (by decide)

theorem Chip.Closed.mode_eq (h : c.Closed) : c.mode mcp2515 = 4 := beq_iff_eq.mp h.mode

theorem Chip.Closed.receive (h : c.Closed) (f : CanFrame) (n : Nat) : c.receive mcp2515 f n = c := by
  have hno : c.modeReceives mcp2515 = false := by rw [Chip.modeReceives, h.mode_eq]; rfl
  rw [Chip.receive, hno]
  rfl

theorem Chip.Closed.start (h : c.Closed) : c.start mcp2515 = c := by
  have hno : c.modeSends mcp2515 = false := by rw [Chip.modeSends, h.mode_eq]; rfl
  rw [Chip.start, hno, Bool.not_false, Bool.or_true]
  rfl

theorem Chip.Closed.complete (h : c.Closed) : c.complete mcp2515 = c := by
  rw [Chip.complete, h.onBus]

/-- A write at another address than CANCTRL's (43_can_config.md R424). -/
theorem Chip.Closed.writeAt (h : c.Closed) {a : Nat} (ha : a ≠ 0x0F) (v : Byte) : (c.writeAt mcp2515 a v).Closed where
  mode := by rw [Chip.inConfigMode_writeAt, h.mode]
  request := by
    rw [Chip.reg_eq, Chip.cell_writeAt, if_neg fun e => ha e.1]
    exact h.request
  onBus := Chip.onBus_writeAt_of_none h.onBus _ _ _

/-- The bits that the chip changes on its own hold no mode (70_reset_and_hazards.md R705). -/
theorem Chip.Closed.poke (h : c.Closed) (a : Fin 128) (v : Byte) : (c.poke mcp2515 a.val v).Closed := by
  have hreg : ∀ b ∈ ([0x0E, 0x0F] : List Byte),
      ((c.poke mcp2515 a.val v).reg b).extractLsb' 5 3 = (c.reg b).extractLsb' 5 3 := fun b hb => by
    have hown : ∀ b ∈ ([0x0E, 0x0F] : List Byte), (ownBits b.toNat).extractLsb' 5 3 = 0 := by decide
    have hcell : (c.poke mcp2515 a.val v).reg b =
        if a.val = b.toNat ∧ b.toNat < 128 then mergeBits (mcp2515.info a.val).own (c.cell a.val) v else c.reg b :=
      getD_setIfInBounds _ _ _ _
    rw [hcell]
    split
    next hab =>
      rw [hab.1, mcp2515_info hab.2]
      exact extractLsb'_mergeBits_old (hown b hb) _ _
    next => rfl
  exact {
    mode := beq_iff_eq.mpr ((hreg 0x0E (by decide)).trans (beq_iff_eq.mp h.mode))
    request := (hreg 0x0F (by decide)).trans h.request
    onBus := h.onBus }

/-- The mode that is entered is the one requested (43_can_config.md R424). -/
theorem Chip.Closed.enterMode (h : c.Closed) : (c.enterMode mcp2515).Closed := by
  refine h.put (fun _ => ?_) (fun e => absurd e (by decide))
  have hcomm : mergeBits 0xE0 (c.reg 0x0E) (c.reg 0x0F) = mergeBits 0x1F (c.reg 0x0F) (c.reg 0x0E) := BitVec.or_comm _ _
  exact (congrArg _ hcomm).trans ((extractLsb'_mergeBits_old (by decide) _ _).trans h.request)

/-- Whatever happens in a chip in configuration mode, it stays there, and neither sends nor receives
(70_reset_and_hazards.md R705). -/
theorem Chip.Closed.act (h : c.Closed) (e : ChipEvent) (n : Nat) :
    (c.act mcp2515 e n).Closed ∧ (c.act mcp2515 e n).sent = c.sent ∧
      ∀ b, (c.act mcp2515 e n).rxFull mcp2515 b = c.rxFull mcp2515 b := by
  cases e with
  | receive f =>
    rw [Chip.act, h.receive]
    exact ⟨h, rfl, fun _ => rfl⟩
  | start =>
    rw [Chip.act, h.start]
    exact ⟨h, rfl, fun _ => rfl⟩
  | complete =>
    rw [Chip.act, h.complete]
    exact ⟨h, rfl, fun _ => rfl⟩
  | lose => exact ⟨⟨h.mode, h.request, rfl⟩, rfl, fun _ => rfl⟩
  | enterMode => exact ⟨h.enterMode, rfl, fun b => (SameBuffer.act c b (by simp) n).1⟩
  | busError flags tx rx =>
    refine ⟨?_, (Chip.busError_recorded c flags tx rx).1.sent, fun b => (SameBuffer.act c b (by simp) n).1⟩
    exact ((h.recordError _).put_other _ (by decide)).put_other _ (by decide)
  | poke a v => exact ⟨h.poke a v, rfl, fun b => (SameBuffer.act c b (by simp) n).1⟩

end

/-- Settles O49: what the set-up chip shows, and that it is closed; a closed chip stays closed, event by event. -/
theorem chipAfterInitialisation : Obligations.ChipAfterInitialisation := by
  intro s hm ht hd
  obtain ⟨t, hexec, hend, -, -⟩ := Quiet.execCanInit (p := s.pins) ⟨hm, hd, rfl⟩ ht
  have hup := hend.setUp
  have hfull : ∀ b, t.chip.rxFull mcp2515 b = false := fun b => by
    rw [Chip.rxFull_eq, hend.canintf]
    simp
  exact ⟨t, hexec, hup.closed.mode, hup.cell (a := 0x28) (by decide) rfl, hup.cell (a := 0x29) (by decide) rfl,
    hup.cell (a := 0x2A) (by decide) rfl, hup.txreq, hfull, hup.bukt, hend.bfpctrl, hend.caninte, hup.accepts,
    hup.closed, fun _ hc => ⟨hc.act, fun _ v ha => ⟨hc.writeAt ha v, Chip.writeAt_sent _ _ _ v⟩⟩⟩

end Sys2Proof.Machine
end


section
/-! PROOF. Into which buffer an arriving frame goes, and that it stands there (43_can_config.md R409, 45_can_rx.md R504,
R510, R511). -/

namespace Sys2Proof.Machine

/-! ### The header of a received frame (45_can_rx.md R504) -/

/-- What the header of an extended frame looks at in SIDL is the frame's, whatever the other bits are. -/
theorem sidl_received_extended (sid : BitVec 3) (eid : BitVec 2) (free : Byte) :
    let h := mergeBits 0x14 ((sid.zeroExtend 8 <<< 5) ||| 0x08 ||| eid.zeroExtend 8) free
    h.getLsbD 3 = true ∧ h.extractLsb' 5 3 = sid ∧ h.extractLsb' 0 2 = eid := by
  have hfields : ∀ (sid : BitVec 3) (eid : BitVec 2),
      ((sid.zeroExtend 8 <<< 5) ||| 0x08 ||| eid.zeroExtend 8 : Byte).getLsbD 3 = true ∧
        ((sid.zeroExtend 8 <<< 5) ||| 0x08 ||| eid.zeroExtend 8 : Byte).extractLsb' 5 3 = sid ∧
        ((sid.zeroExtend 8 <<< 5) ||| 0x08 ||| eid.zeroExtend 8 : Byte).extractLsb' 0 2 = eid := by decide
  dsimp only
  rw [getLsbD_mergeBits, extractLsb'_mergeBits_old (by decide), extractLsb'_mergeBits_old (by decide)]
  exact hfields sid eid

theorem dlc_received_extended (rtr : Bool) (dlc : BitVec 4) (free : Byte) :
    let h := mergeBits 0xB0 (dlcByte rtr (dlc.zeroExtend 8)) free
    h.getLsbD 6 = rtr ∧ h.extractLsb' 0 4 = dlc := by
  have hfields : ∀ (rtr : Bool) (dlc : BitVec 4), (dlcByte rtr (dlc.zeroExtend 8)).getLsbD 6 = rtr ∧
      (dlcByte rtr (dlc.zeroExtend 8)).extractLsb' 0 4 = dlc := by decide
  dsimp only
  rw [getLsbD_mergeBits, extractLsb'_mergeBits_old (by decide)]
  exact hfields rtr dlc

/-- What the header of a standard frame looks at in SIDL is the frame's, whatever the other bits are. -/
theorem sidl_received_standard (sid : BitVec 3) (rtr : Bool) (free : Byte) :
    let h := mergeBits 0x07 ((sid.zeroExtend 8 <<< 5) ||| (if rtr then 0x10 else 0x00)) free
    h.getLsbD 3 = false ∧ h.getLsbD 4 = rtr ∧ h.extractLsb' 5 3 = sid := by
  have hfields : ∀ (sid : BitVec 3) (rtr : Bool),
      ((sid.zeroExtend 8 <<< 5) ||| (if rtr then 0x10 else 0x00) : Byte).getLsbD 3 = false ∧
        ((sid.zeroExtend 8 <<< 5) ||| (if rtr then 0x10 else 0x00) : Byte).getLsbD 4 = rtr ∧
        ((sid.zeroExtend 8 <<< 5) ||| (if rtr then 0x10 else 0x00) : Byte).extractLsb' 5 3 = sid := by decide
  dsimp only
  rw [getLsbD_mergeBits, getLsbD_mergeBits, extractLsb'_mergeBits_old (by decide)]
  exact hfields sid rtr

theorem dlc_received_standard (dlc : BitVec 4) (free : Byte) :
    (mergeBits 0xF0 (dlc.zeroExtend 8) free).extractLsb' 0 4 = dlc := by
  rw [extractLsb'_mergeBits_old (by decide)]
  revert dlc
  decide

/-- The fields of an extended identifier make it up (45_can_rx.md R504). -/
theorem append_fields_extended (id : BitVec 29) :
    id.extractLsb' 21 8 ++ id.extractLsb' 18 3 ++ id.extractLsb' 16 2 ++ id.extractLsb' 8 8 ++ id.extractLsb' 0 8 =
      id := by
  rw [BitVec.extractLsb'_append_extractLsb'_eq_extractLsb' (by decide),
    BitVec.extractLsb'_append_extractLsb'_eq_extractLsb' (by decide),
    BitVec.extractLsb'_append_extractLsb'_eq_extractLsb' (by decide),
    BitVec.extractLsb'_append_extractLsb'_eq_extractLsb' (by decide)]
  exact BitVec.extractLsb'_eq_self

/-- The five header registers of a received frame decode to the frame. -/
theorem decodeHeader_rxImage (f : CanFrame) (n : Nat) : ∃ h0 h1 h2 h3 h4, rxImage f n = [h0, h1, h2, h3, h4] ∧
    decodeHeader h0 h1 h2 h3 h4 =
      ⟨f.ext, f.rtr, if f.ext then f.id.zeroExtend 32 else (f.id.extractLsb' 0 11).zeroExtend 32, f.dlc⟩ := by
  unfold rxImage
  cases f.ext with
  | false =>
    refine ⟨_, _, _, _, _, if_neg Bool.false_ne_true, ?_⟩
    obtain ⟨hide, hrtr, hsid⟩ := sidl_received_standard (f.id.extractLsb' 0 3) f.rtr (Config.freeByte n)
    rw [decodeHeader, hide, hrtr, hsid, dlc_received_standard,
      BitVec.extractLsb'_append_extractLsb'_eq_extractLsb' (by decide)]
    rfl
  | true =>
    refine ⟨_, _, _, _, _, if_pos rfl, ?_⟩
    obtain ⟨hide, hsid, heid⟩ :=
      sidl_received_extended (f.id.extractLsb' 18 3) (f.id.extractLsb' 16 2) (Config.freeByte n)
    obtain ⟨hrtr, hdlc⟩ := dlc_received_extended f.rtr f.dlc (Config.freeByte (n + 1))
    rw [decodeHeader, hide, hsid, heid, hrtr, hdlc, append_fields_extended]
    rfl

/-! ### A frame moves into a buffer -/

theorem Chip.cell_putList_other : ∀ (vs : List Byte) (c : Chip) (a x : Nat), x < a ∨ a + vs.length ≤ x →
    (c.putList a vs).cell x = c.cell x
  | [], _, _, _, _ => rfl
  | v :: vs, c, a, x, h => by
    simp only [List.length_cons] at h
    rw [Chip.putList, Chip.cell_putList_other vs _ (a + 1) x (by omega)]
    exact (getD_setIfInBounds _ _ _ _).trans (if_neg fun e => by omega)

theorem Chip.cell_putList : ∀ (vs : List Byte) (c : Chip) (a i : Nat) (hi : i < vs.length), a + vs.length ≤ 128 →
    (c.putList a vs).cell (a + i) = vs[i]
  | v :: vs, c, a, 0, _, ha => by
    simp only [List.length_cons] at ha
    rw [Chip.putList, Chip.cell_putList_other vs _ _ _ (by omega)]
    exact (getD_setIfInBounds _ _ _ _).trans (if_pos ⟨rfl, by omega⟩)
  | v :: vs, c, a, i + 1, hi, ha => by
    simp only [List.length_cons] at ha
    have ih := Chip.cell_putList vs { c with regs := c.regs.setIfInBounds a v } (a + 1) i (Nat.lt_of_succ_lt_succ hi)
      (by omega)
    rw [show a + (i + 1) = a + 1 + i by omega, Chip.putList, ih, List.getElem_cons_succ]

section
variable (c : Chip) (f : CanFrame) (n : Nat)

theorem length_framePayload : (framePayload f).length = payloadLength f.rtr f.dlc.toNat := by
  have hdlc : (f.dlc.zeroExtend 8 : Byte).toNat = f.dlc.toNat := by simp; omega
  rw [framePayload, length_payloadBytes, hdlc]

theorem length_framePayload_le : (framePayload f).length ≤ 8 := by
  rw [length_framePayload]
  unfold payloadLength
  split <;> omega

theorem length_rxImage : (rxImage f n).length = 5 := by
  obtain ⟨_, _, _, _, _, himage, -⟩ := decodeHeader_rxImage f n
  rw [himage]
  rfl

/-- A frame that is not remote carries its data bytes, up to its dlc (45_can_rx.md R505). -/
theorem getElem_framePayload {j : Nat} (hj : j < 8) (hrtr : f.rtr = false) (hdlc : j < f.dlc.toNat) :
    ∃ h : j < (framePayload f).length, (framePayload f)[j] = f.data[j] := by
  have hlen : j < (framePayload f).length := by
    rw [length_framePayload, hrtr, payloadLength, if_neg Bool.false_ne_true]
    omega
  refine ⟨hlen, ?_⟩
  simp only [framePayload, payloadBytes, List.getElem_take, Vector.getElem_toList]

/-- The registers of the buffer that is filled. -/
theorem Chip.cell_fill (b : Fin 2) {i : Nat} (hi : i < (rxImage f n ++ framePayload f).length) :
    (c.fill mcp2515 b f n).cell (0x61 + 0x10 * b.val + i) = (rxImage f n ++ framePayload f)[i] := by
  have hlen := length_framePayload_le f
  have himage := length_rxImage f n
  rw [List.length_append] at hi
  have hput := Chip.cell_putList (rxImage f n ++ framePayload f) c (0x61 + 0x10 * b.val) i
    (by rw [List.length_append]; exact hi) (by rw [List.length_append]; omega)
  rw [← hput, Chip.fill, mcp2515_rxSidh, Chip.raise]
  refine (getD_setIfInBounds _ _ _ _).trans (if_neg fun e => ?_)
  have hintf : mcp2515.canintf.toNat = 0x2C := rfl
  omega

theorem Chip.frameReceived_fill (b : Fin 2) : FrameReceived (c.fill mcp2515 b f n) b f := by
  obtain ⟨h0, h1, h2, h3, h4, himage, hheader⟩ := decodeHeader_rxImage f n
  have hcell : ∀ (i : Nat) (hi : i < ([h0, h1, h2, h3, h4] ++ framePayload f).length),
      (c.fill mcp2515 b f n).cell (0x61 + 0x10 * b.val + i) = ([h0, h1, h2, h3, h4] ++ framePayload f)[i] := by
    rw [← himage]
    exact fun i hi => Chip.cell_fill c f n b hi
  constructor
  case full =>
    rw [Chip.rxFull_eq, Chip.fill, Chip.raise, mcp2515_canintf, Chip.reg_put_same _ _ _ (by decide), BitVec.getLsbD_or,
      getLsbD_bitByte (mcp2515.rxif[b]).isLt, mcp2515_rxif_get, decide_eq_true rfl, Bool.or_true]
  case header =>
    have k0 : (c.fill mcp2515 b f n).cell (0x61 + 0x10 * b.val) = h0 := hcell 0 (by simp)
    rw [Chip.rxHeader, mcp2515_rxSidh, k0, hcell 1 (by simp), hcell 2 (by simp), hcell 3 (by simp), hcell 4 (by simp),
      ← hheader]
    rfl
  case payload =>
    intro hrtr j hj hdlc
    obtain ⟨hlen, hbyte⟩ := getElem_framePayload f hj hrtr hdlc
    have hdata := hcell (5 + j) (by simp only [List.length_append, List.length_cons, List.length_nil]; omega)
    rw [show 0x66 + 0x10 * b.val + j = 0x61 + 0x10 * b.val + (5 + j) by omega, hdata, ← hbyte,
      List.getElem_append_right (Nat.le_add_right 5 j)]
    simp

/-- A frame that fills one buffer leaves the other alone. -/
theorem SameBuffer.fill {b b' : Fin 2} (h : b' ≠ b) : SameBuffer c (c.fill mcp2515 b' f n) b := by
  have hput : SameBuffer c (c.putList (mcp2515.rxSidh b') (rxImage f n ++ framePayload f)) b := by
    have hlen : (rxImage f n ++ framePayload f).length ≤ 13 := by
      have := length_framePayload_le f
      rw [List.length_append, length_rxImage]
      omega
    rw [mcp2515_rxSidh]
    constructor
    · rw [Chip.rxFull_eq, Chip.rxFull_eq, Chip.reg_eq, Chip.cell_putList_other _ _ _ _ (.inl ?_)]
      · rfl
      · rw [show (0x2C : Byte).toNat = 0x2C from rfl]
        omega
    · exact fun j hj => Chip.cell_putList_other _ _ _ _ (by omega)
  refine hput.trans (.raise (mcp2515.rxif[b']).isLt ?_)
  rw [mcp2515_rxif_get]
  exact fun e => h (Fin.ext e)

end

/-! ### The arrival of a frame (43_can_config.md R409, 45_can_rx.md R511) -/

section
variable {c : Chip} {f : CanFrame} {n : Nat} (hr : c.modeReceives mcp2515 = true)
include hr

theorem Chip.receive_into0 (hfirst : c.accepts0 mcp2515 f n = true) (h0 : c.rxFull mcp2515 0 = false) :
    c.receive mcp2515 f n = c.fill mcp2515 0 f (n + 2) := by
  simp [Chip.receive, hr, hfirst, h0]

/-- Buffer 1 takes a frame that rolls over from buffer 0. -/
theorem Chip.receive_rollover (hfirst : c.accepts0 mcp2515 f n = true) (h0 : c.rxFull mcp2515 0 = true)
    (hrolls : (c.reg 0x60).getLsbD 2 = true) (h1 : c.rxFull mcp2515 1 = false) :
    c.receive mcp2515 f n = c.fill mcp2515 1 f (n + 2) := by
  have hbukt : c.bukt mcp2515 = true := hrolls
  simp [Chip.receive, hr, hfirst, h0, hbukt, h1]

theorem Chip.receive_into1 (hfirst : c.accepts0 mcp2515 f n = false) (hsecond : c.accepts1 mcp2515 f n = true)
    (h1 : c.rxFull mcp2515 1 = false) : c.receive mcp2515 f n = c.fill mcp2515 1 f (n + 2) := by
  simp [Chip.receive, hr, hfirst, hsecond, h1]

theorem Chip.receive_none (hfirst : c.accepts0 mcp2515 f n = false) (hsecond : c.accepts1 mcp2515 f n = false) :
    c.receive mcp2515 f n = c := by
  simp [Chip.receive, hr, hfirst, hsecond]

end

/-- An arriving frame fills a buffer that is free, or it is lost with an overrun, or it changes nothing. -/
theorem Chip.receive_cases (c : Chip) (f : CanFrame) (n : Nat) :
    c.receive mcp2515 f n = c ∨ (∃ b, c.receive mcp2515 f n = c.overrun mcp2515 b) ∨
      ∃ b, c.rxFull mcp2515 b = false ∧ c.receive mcp2515 f n = c.fill mcp2515 b f (n + 2) := by
  unfold Chip.receive
  split
  next => exact .inl rfl
  next =>
    split
    next =>
      split
      next h0 => exact .inr (.inr ⟨0, by simpa using h0, rfl⟩)
      next =>
        split
        next =>
          split
          next h1 => exact .inr (.inr ⟨1, by simpa using h1, rfl⟩)
          next => exact .inr (.inl ⟨1, rfl⟩)
        next => exact .inr (.inl ⟨0, rfl⟩)
    next =>
      split
      next =>
        split
        next h1 => exact .inr (.inr ⟨1, by simpa using h1, rfl⟩)
        next => exact .inr (.inl ⟨1, rfl⟩)
      next => exact .inl rfl

/-- A full buffer keeps its frame whatever arrives (60_exceptions.md R613). -/
theorem SameBuffer.receive {c : Chip} {b : Fin 2} (h : c.rxFull mcp2515 b = true) (f : CanFrame) (n : Nat) :
    SameBuffer c (c.receive mcp2515 f n) b := by
  rcases Chip.receive_cases c f n with he | ⟨x, he⟩ | ⟨x, hfree, he⟩
  · rw [he]; exact .refl c b
  · rw [he]; exact .recordError c b _
  · rw [he]
    refine .fill c f _ fun hx => ?_
    rw [hx, h] at hfree
    cases hfree

/-- Settles O58: the events one by one, the cases of an arrival, and the filters after a mask and a code. -/
theorem arrivingFramesAreSortedIntoFreeBuffers : Obligations.ArrivingFramesAreSortedIntoFreeBuffers := by
  refine ⟨fun c e n b hfull => ?kept, fun c f n hr => ⟨fun hfirst h0 => ?into0, fun hfirst h0 hrolls h1 => ?rollover,
    fun hfirst hsecond h1 => ?into1, fun hfirst hsecond => Chip.receive_none hr hfirst hsecond⟩, ?alike⟩
  case kept =>
    by_cases he : ∃ f, e = .receive f
    · obtain ⟨f, rfl⟩ := he
      exact .receive hfull f n
    · exact .act c b (fun f hf => he ⟨f, hf⟩) n
  case into0 =>
    rw [Chip.act, Chip.receive_into0 hr hfirst h0]
    exact ⟨Chip.frameReceived_fill c f _ 0, .fill c f _ (by decide)⟩
  case rollover =>
    rw [Chip.act, Chip.receive_rollover hr hfirst h0 hrolls h1]
    exact ⟨Chip.frameReceived_fill c f _ 1, .fill c f _ (by decide)⟩
  case into1 =>
    rw [Chip.act, Chip.receive_into1 hr hfirst hsecond h1]
    exact ⟨Chip.frameReceived_fill c f _ 1, .fill c f _ (by decide)⟩
  case alike =>
    intro s t u m0 m1 m2 m3 c0 c1 c2 c3 hm hd hconf hm1 hm2 hm3 hst htu f g n k hf hg hid
    have hupper : upperId f = upperId g := by simp only [upperId, hf, hg, Bool.false_eq_true, if_false, if_true, hid]
    have accept := accepted_alike hm hd hconf hm1 hm2 hm3 hst htu
    obtain ⟨standard0, standard1⟩ := accept f n
    obtain ⟨extended0, extended1⟩ := accept g k
    rw [standard0, standard1, extended0, extended1, hupper]
    exact ⟨rfl, rfl⟩

end Sys2Proof.Machine
end


section
/-! PROOF. The choice of slot and priority of CAN_SEND (44_can_tx.md R450 to R453): it is that of the table (O52), it
keeps the order of age (R459), and it is none exactly when all slots are busy (O51). -/

namespace Sys2Proof.Machine

/-! ### Ranks after a priority is changed (44_can_tx.md R452) -/

theorem getElem_set_slot (sp : Vector (Fin 4) 3) (x y : Fin 3) (q : Fin 4) :
    (sp.set x q)[y] = if x = y then q else sp[y] := by
  simp only [Fin.getElem_fin, Vector.getElem_set, Fin.ext_iff]

theorem slotRank_set (sp : Vector (Fin 4) 3) (x y : Fin 3) (q : Fin 4) :
    slotRank (sp.set x q) y = if x = y then 4 * q.val + y.val else slotRank sp y := by
  rw [slotRank, getElem_set_slot]
  split <;> rfl

theorem slotRank_set_same (sp : Vector (Fin 4) 3) (x : Fin 3) (q : Fin 4) :
    slotRank (sp.set x q) x = 4 * q.val + x.val := by
  rw [slotRank_set, if_pos rfl]

theorem slotRank_set_other (sp : Vector (Fin 4) 3) {x y : Fin 3} (h : x ≠ y) (q : Fin 4) :
    slotRank (sp.set x q) y = slotRank sp y := by
  rw [slotRank_set, if_neg h]

/-- Of some slots, each that ranks above another still does. -/
def KeepsOrder (slots : List (Fin 3)) (sp sp' : Vector (Fin 4) 3) : Prop :=
  ∀ x ∈ slots, ∀ y ∈ slots, slotRank sp y < slotRank sp x → slotRank sp' y < slotRank sp' x

theorem KeepsOrder.trans {slots : List (Fin 3)} {sp sp' sp'' : Vector (Fin 4) 3} (h : KeepsOrder slots sp sp')
    (k : KeepsOrder slots sp' sp'') : KeepsOrder slots sp sp'' :=
  fun x hx y hy hr => k x hx y hy (h x hx y hy hr)

theorem KeepsOrder.set_notMem {slots : List (Fin 3)} (sp : Vector (Fin 4) 3) {x : Fin 3} (hx : x ∉ slots) (q : Fin 4) :
    KeepsOrder slots sp (sp.set x q) := by
  have hne : ∀ y ∈ slots, x ≠ y := fun y hy e => hx (e ▸ hy)
  intro y hy z hz hr
  rwa [slotRank_set_other _ (hne y hy), slotRank_set_other _ (hne z hz)]

/-- Each of the promotions, in order, leaves the busy slots in the order of their ranks. -/
def PromotesInOrder (busy : List (Fin 3)) : Vector (Fin 4) 3 → List (Fin 3 × Fin 4) → Prop
  | _, [] => True
  | sp, (x, q) :: ps => KeepsOrder busy sp (sp.set x q) ∧ PromotesInOrder busy (sp.set x q) ps

theorem PromotesInOrder.promotePrios {busy : List (Fin 3)} : ∀ {ps : List (Fin 3 × Fin 4)} {sp : Vector (Fin 4) 3},
    PromotesInOrder busy sp ps → KeepsOrder busy sp (promotePrios sp ps)
  | [], _, _ => fun _ _ _ _ hr => hr
  | (_, _) :: _, _, ⟨h, hps⟩ => h.trans hps.promotePrios

/-- A promotion changes the priorities of the slots that it names only. -/
theorem promotePrios_other {z : Fin 3} : ∀ {ps : List (Fin 3 × Fin 4)} (sp : Vector (Fin 4) 3),
    (∀ p ∈ ps, p.1 ≠ z) → (promotePrios sp ps)[z] = sp[z]
  | [], _, _ => rfl
  | (x, q) :: ps, sp, h => by
    obtain ⟨hx, hps⟩ := List.forall_mem_cons.mp h
    rw [promotePrios, promotePrios_other (sp.set x q) hps, getElem_set_slot, if_neg hx]

/-! ### The choice with one and with two busy slots (44_can_tx.md R452, R453) -/

/-- The choice keeps the order of age: the promotions are of busy slots and leave them in their order, and the new frame
ranks below every one of them (44_can_tx.md R459). -/
structure TxChoice.KeepsAge (ch : TxChoice) (busy : List (Fin 3)) (sp : Vector (Fin 4) 3) : Prop where
  free : ch.slot ∉ busy
  named : ∀ p ∈ ch.promos, p.1 ∈ busy
  kept : PromotesInOrder busy sp ch.promos
  newest : ∀ x ∈ busy, 4 * ch.prio.val + ch.slot.val < slotRank (promotePrios sp ch.promos) x

theorem pref1_eq : ∀ a : Fin 3, pref1 a = if a = 2 then 1 else if a = 1 then 0 else 2 := by decide
theorem pref1_ne : ∀ a : Fin 3, pref1 a ≠ a := by decide

theorem chooseOne_keepsAge (a : Fin 3) (sp : Vector (Fin 4) 3) : (chooseOne a sp).KeepsAge [a] sp := by
  have hfree : pref1 a ∉ [a] := by simpa using pref1_ne a
  have hslot := (pref1 a).isLt
  unfold chooseOne
  split
  next hlt =>
    have hlt : (pref1 a).val < a.val := hlt
    exact ⟨hfree, nofun, trivial, by simp [slotRank, promotePrios, hlt]⟩
  next =>
    split
    next hpos =>
      have hsub : (sp[a] - 1).val = sp[a].val - 1 := Fin.sub_val_of_le (Fin.le_def.mpr hpos)
      refine ⟨hfree, nofun, trivial, fun x hx => ?_⟩
      cases List.mem_singleton.mp hx
      simp only [hsub, promotePrios, slotRank]
      omega
    next =>
      refine ⟨hfree, by simp, ⟨fun x hx y hy hr => ?_, trivial⟩, fun x hx => ?_⟩
      · cases List.mem_singleton.mp hx
        cases List.mem_singleton.mp hy
        exact absurd hr (Nat.lt_irrefl _)
      · cases List.mem_singleton.mp hx
        simp only [promotePrios, slotRank_set_same]
        change 4 * 2 + _ < 4 * 3 + _
        omega

theorem chooseTwo_eq (a b : Fin 3) :
    chooseTwo a b = ⟨otherSlot a b, if b < a then 2 else 1, [(a, 3), (b, if b < a then 3 else 2)]⟩ := by
  unfold chooseTwo
  split <;> rfl

/-- Two slots stay in order when the older still ranks above the newer. -/
theorem KeepsOrder.of_pair {busy : List (Fin 3)} {a b : Fin 3} {sp sp' : Vector (Fin 4) 3}
    (hbusy : ∀ x ∈ busy, x = a ∨ x = b) (hold : slotRank sp b < slotRank sp a)
    (hnew : slotRank sp' b < slotRank sp' a) : KeepsOrder busy sp sp' := by
  intro x hx y hy hr
  rcases hbusy x hx with rfl | rfl <;> rcases hbusy y hy with rfl | rfl
  · exact absurd hr (Nat.lt_irrefl _)
  · exact hnew
  · exact absurd hr (Nat.lt_asymm hold)
  · exact absurd hr (Nat.lt_irrefl _)

section
variable {busy : List (Fin 3)} {a b : Fin 3} {sp : Vector (Fin 4) 3} (hbusy : ∀ x, x ∈ busy ↔ x = a ∨ x = b)
  (hold : slotRank sp b < slotRank sp a)
include hbusy hold

/-- The older slot gets the highest priority, the newer one that ranks below it, and the new frame a lower priority. -/
theorem promotedPair_keepsAge {q p : Fin 4} (hq : 4 * q.val + b.val < 4 * 3 + a.val) (hp : p.val < q.val) :
    TxChoice.KeepsAge ⟨otherSlot a b, p, [(a, 3), (b, q)]⟩ busy sp := by
  have hab : a ≠ b := by rintro rfl; exact Nat.lt_irrefl _ hold
  have hmem : ∀ x ∈ busy, x = a ∨ x = b := fun x => (hbusy x).mp
  have hslot := (otherSlot a b).isLt
  have hfirst : slotRank (sp.set a 3) b < slotRank (sp.set a 3) a := by
    have htop : slotRank sp a ≤ 4 * 3 + a.val := by unfold slotRank; omega
    rw [slotRank_set_other _ hab, slotRank_set_same]
    exact Nat.lt_of_lt_of_le hold htop
  have hranka : slotRank ((sp.set a 3).set b q) a = 4 * 3 + a.val := by
    rw [slotRank_set_other _ hab.symm, slotRank_set_same]
    rfl
  have hrankb : slotRank ((sp.set a 3).set b q) b = 4 * q.val + b.val := slotRank_set_same _ _ _
  refine ⟨?free, by simp [hbusy], ⟨.of_pair hmem hold hfirst, .of_pair hmem hfirst ?second, trivial⟩,
    fun x hx => ?newest⟩
  case free => simpa [hbusy] using (otherSlot_notMem a b hab).1
  case second => rwa [hranka, hrankb]
  case newest =>
    simp only [promotePrios]
    rcases hmem x hx with rfl | rfl
    · rw [hranka]; omega
    · rw [hrankb]; omega

theorem chooseTwo_keepsAge : (chooseTwo a b).KeepsAge busy sp := by
  unfold chooseTwo
  split
  next hlt => exact promotedPair_keepsAge hbusy hold (Nat.add_lt_add_left (Fin.lt_def.mp hlt) _) (by decide)
  next =>
    refine promotedPair_keepsAge hbusy hold ?_ (by decide)
    change 4 * 2 + _ < _
    omega

end

/-- Slots of equal rank are equal. -/
theorem slotRank_injective {sp : Vector (Fin 4) 3} {x y : Fin 3} (h : slotRank sp x = slotRank sp y) : x = y := by
  unfold slotRank at h
  omega

/-- Whatever the busy slots, the choice keeps the order of age. -/
theorem chooseSlot_keepsAge {busy : List (Fin 3)} {sp : Vector (Fin 4) 3} {ch : TxChoice} (hb : busy.Nodup)
    (h : chooseSlot busy sp = some ch) : ch.KeepsAge busy sp := by
  unfold chooseSlot at h
  split at h
  case h_1 => cases h; exact ⟨nofun, nofun, trivial, nofun⟩
  case h_2 a => cases h; exact chooseOne_keepsAge a sp
  case h_3 a b =>
    cases h
    split
    next hr => exact chooseTwo_keepsAge (by simp) hr
    next hr =>
      have hab : a ≠ b := by simpa using hb
      have hne : slotRank sp a ≠ slotRank sp b := fun e => hab (slotRank_injective e)
      exact chooseTwo_keepsAge (by simp [or_comm]) (by omega)
  case h_4 => cases h

/-- With two busy slots the one of higher rank is the older (44_can_tx.md R452). -/
theorem chooseSlot_pair {a b : Fin 3} {sp : Vector (Fin 4) 3} (hold : slotRank sp b < slotRank sp a) :
    chooseSlot (if a < b then [a, b] else [b, a]) sp = some (chooseTwo a b) := by
  split
  · exact congrArg some (if_pos hold)
  · exact congrArg some (if_neg (Nat.lt_asymm hold))

theorem otherSlot_eq : ∀ a b c : Fin 3, a ≠ b → c ≠ a → c ≠ b → otherSlot a b = c := by decide

/-- Settles O52: the table's rows one by one, and the order of age from the lemmas of the two rows with busy slots. -/
theorem choiceFollowsTheTableAndKeepsTheAge : Obligations.ChoiceFollowsTheTableAndKeepsTheAge := by
  refine ⟨fun sp => rfl, fun a sp => ⟨_, rfl, ?slot, ?promos, ?prio⟩, fun a b c sp hab hca hcb hold => ?two,
    fun busy sp ch hb h => ?age⟩
  case slot => rw [chooseOne_slot, pref1_eq]
  case promos =>
    rw [chooseOne_slot, chooseOne]
    split
    next hlt => exact (if_pos (.inl hlt)).symm
    next hlt =>
      split
      next hpos => exact (if_pos (.inr hpos)).symm
      next hpos => exact (if_neg (not_or.mpr ⟨hlt, hpos⟩)).symm
  case prio =>
    rw [chooseOne_slot, chooseOne]
    split
    next => rfl
    next =>
      split
      next hpos => exact Fin.sub_val_of_le (Fin.le_def.mpr hpos)
      next => rfl
  case two =>
    refine ⟨_, chooseSlot_pair hold, ?_⟩
    rw [chooseTwo_eq, otherSlot_eq a b c hab hca hcb]
    exact ⟨rfl, rfl, by dsimp only; split <;> rfl⟩
  case age =>
    have hage := chooseSlot_keepsAge (hb.nodup (by decide)) h
    have hset : ∀ x ∈ busy, ∀ q : Fin 4, slotRank ((promotePrios sp ch.promos).set ch.slot q) x =
        slotRank (promotePrios sp ch.promos) x := fun x hx q =>
      slotRank_set_other _ (by rintro rfl; exact hage.free hx) q
    refine ⟨hage.free, fun x hx => ?_, hage.kept.promotePrios.trans (.set_notMem _ hage.free _), fun x hx hne => ?_⟩
    · rw [slotRank_set_same, hset x hx]
      exact hage.newest x hx
    · rw [getElem_set_slot, if_neg (Ne.symm hne)]
      exact promotePrios_other sp fun p hp e => hx (e ▸ hage.named p hp)

/-! ### The busy slots (44_can_tx.md R450, R451, R463) -/

theorem chooseSlot_eq_none {busy : List (Fin 3)} {sp : Vector (Fin 4) 3} :
    chooseSlot busy sp = none ↔ 3 ≤ busy.length := by
  match busy with
  | [] | [_] | [_, _] | _ :: _ :: _ :: _ => simp [chooseSlot]

/-- There is no choice exactly when every slot is busy. -/
theorem chooseSlot_busySlots_eq_none {m : ChipTable} {st : Byte} {sp : Vector (Fin 4) 3} :
    chooseSlot (busySlots m st) sp = none ↔ busySlots m st = [0, 1, 2] := by
  have hsub : (busySlots m st).Sublist [0, 1, 2] := List.filter_sublist
  exact chooseSlot_eq_none.trans ⟨fun h => hsub.eq_of_length_le h, fun h => by rw [h]; exact Nat.le_refl 3⟩

theorem busySlots_eq_all {m : ChipTable} {st : Byte} : busySlots m st = [0, 1, 2] ↔ ∀ x, slotBusy m st x = true := by
  rw [busySlots, List.filter_eq_self]
  exact ⟨fun h x => h x (by revert x; decide), fun h x _ => h x⟩

/-- Settles O51: READ STATUS names the pending slots busy. -/
theorem refusedExactlyWhenAllSlotsAreBusy : Obligations.RefusedExactlyWhenAllSlotsAreBusy := by
  intro c sp
  rw [chooseSlot_busySlots_eq_none, busySlots_eq_all]
  exact forall_congr' fun x => by rw [slotBusy_status]

end Sys2Proof.Machine
end


section
/-! PROOF. The refusals of CAN_SEND, and what it puts on the bus and remembers of an accepted frame (44_can_tx.md R450
to R461) (O50). -/

namespace Sys2Proof.Machine

/-- The busy slots of the reference chip are those whose bit of the status is set (44_can_tx.md R451). -/
theorem mcp2515_busySlots (st : Byte) :
    busySlots mcp2515 st = ([0, 1, 2] : List (Fin 3)).filter fun x => st.getLsbD (2 + 2 * x.val) := by
  have hbit : ∀ x : Fin 3, (mcp2515.statusTxreq[x]).val = 2 + 2 * x.val := by decide
  exact congrArg ([0, 1, 2].filter ·) (funext fun x => congrArg st.getLsbD (hbit x))

/-- The request byte of the reference chip (44_can_tx.md R456). -/
theorem mcp2515_requestByte (p : Fin 4) : requestByte mcp2515 p = 0x08 ||| BitVec.ofNat 8 p.val := by revert p; decide

section
variable {flags : Byte} {id : BitVec 32} {dlc : Byte} {data : Vector Byte 8} {s : State}

theorem execCanSend_invalid (hdlc : 15 < dlc.toNat) :
    execCanSend flags id dlc data s = .next (respond .no [] s) := if_pos hdlc

/-- With all slots busy the frame is refused after the READ STATUS (44_can_tx.md R450). -/
theorem execCanSend_full (hdlc : dlc.toNat ≤ 15)
    (h : chooseSlot (busySlots s.cfg.chip ((letOutside s).chip.status s.cfg.chip)) s.can.slotPrio = none) :
    execCanSend flags id dlc data s = .next (respond .no [] (txnReadStatus s).2) := by
  rw [execCanSend, if_neg (by omega)]
  simp only [txnReadStatus_value, txnReadStatus_cfg, txnReadStatus_can, h]

theorem execCanSend_accepted (hdlc : dlc.toNat ≤ 15) {ch : TxChoice}
    (h : chooseSlot (busySlots s.cfg.chip ((letOutside s).chip.status s.cfg.chip)) s.can.slotPrio = some ch) :
    execCanSend flags id dlc data s = .next (respond .ok [] (rememberSend ch
      (sendTxns ch (operandBytes flags id dlc data) (txnReadStatus s).2))) := by
  rw [execCanSend, if_neg (by omega)]
  simp only [txnReadStatus_value, txnReadStatus_cfg, txnReadStatus_can, h, loadBytes_eq_operandBytes]

end

/-- The transactions of an accepted frame: the promotions, the load and the request (44_can_tx.md R454 to R456). -/
theorem sendTxns_mosi {s : State} (hm : s.cfg.chip = mcp2515) (ch : TxChoice) (load : List Byte) :
    (sendTxns ch load s).sentOnBus = s.sentOnBus ++
      ch.promos.map (fun p => [0x05, BitVec.ofNat 8 (0x30 + 0x10 * p.1.val), 0x03, BitVec.ofNat 8 p.2.val]) ++
      [BitVec.ofNat 8 (0x40 + 2 * ch.slot.val) :: load,
        [0x02, BitVec.ofNat 8 (0x30 + 0x10 * ch.slot.val), 0x08 ||| BitVec.ofNat 8 ch.prio.val]] := by
  have hcfg : (promoteTxns ch.promos s).cfg.chip = mcp2515 := by rw [promoteTxns_cfg, hm]
  have hload : (txnLoadTx ch.slot load (promoteTxns ch.promos s)).cfg.chip = mcp2515 := by rw [txnLoadTx_cfg, hcfg]
  rw [State.sentOnBus, sendTxns, txnWrite_mosi, txnLoadTx_mosi, promoteTxns_mosi, hload, hcfg, hm, mcp2515_requestByte,
    mcp2515_cmdLoadTx_get]
  simp [State.sentOnBus]

/-- Settles O50: the frame is invalid, or refused, or accepted with the choice that there is. -/
theorem canSendEffect : Obligations.CanSendEffect := by
  intro s flags id dlc data hm st busy
  have hbusy : busySlots s.cfg.chip ((letOutside s).chip.status s.cfg.chip) = busy := by
    rw [hm]; exact mcp2515_busySlots st
  have hstatus : (txnReadStatus s).2.sentOnBus = s.sentOnBus ++ [[0xA0, 0x00]] := by
    rw [State.sentOnBus, txnReadStatus_mosi, hm]
    rfl
  refine ⟨fun hdlc => execCanSend_invalid hdlc, fun hdlc hall => ?full, fun hdlc hfree => ?accepted⟩
  case full =>
    refine ⟨_, execCanSend_full hdlc (chooseSlot_busySlots_eq_none.mpr (hbusy.trans hall)), rfl, ?_, rfl, hstatus⟩
    exact txnReadStatus_can s
  case accepted =>
    have hsome : chooseSlot busy s.can.slotPrio ≠ none := by
      rw [← hbusy] at hfree ⊢
      exact fun h => hfree (chooseSlot_busySlots_eq_none.mp h)
    obtain ⟨ch, hch⟩ := Option.ne_none_iff_exists'.mp hsome
    refine ⟨_, ch, hch, execCanSend_accepted hdlc (hbusy ▸ hch), rfl, ?can, ?sent⟩
    case can => simp [respond, rememberSend]
    case sent => exact (sendTxns_mosi (by rw [txnReadStatus_cfg, hm]) ch _).trans (by rw [hstatus])

end Sys2Proof.Machine
end


section
/-! PROOF. The receiver's header decodes the transmitter's image (44_can_tx.md R457, 45_can_rx.md R504) (O57). -/

namespace Sys2Proof.Machine

theorem mergeBits_self (k x : Byte) : mergeBits k x x = x :=
  BitVec.eq_of_getLsbD_eq fun i _ => by rw [getLsbD_mergeBits, ite_self]

theorem toNat_zero_append {n : Nat} (k : Nat) (x : BitVec n) : ((0 : BitVec k) ++ x).toNat = x.toNat := by
  rw [BitVec.toNat_append]
  simp

/-- The value of an append is that of its parts, whatever width the first part has. -/
theorem toNat_append_congr {n k w : Nat} {x : BitVec n} {y : BitVec k} (h : x.toNat = y.toNat) (z : BitVec w) :
    (x ++ z).toNat = (y ++ z).toNat := by
  rw [BitVec.toNat_append, BitVec.toNat_append, h]

theorem zeroExtend_fields_extended (h0 : Byte) (sid : BitVec 3) (eid : BitVec 2) (h2 h3 : Byte) :
    (h0 ++ sid ++ eid ++ h2 ++ h3).zeroExtend 32 = (0 : BitVec 3) ++ h0 ++ sid ++ eid ++ h2 ++ h3 := by
  have hlt := (h0 ++ sid ++ eid ++ h2 ++ h3).isLt
  refine BitVec.eq_of_toNat_eq ?_
  rw [BitVec.toNat_setWidth, Nat.mod_eq_of_lt (by omega)]
  exact (toNat_append_congr (toNat_append_congr (toNat_append_congr (toNat_append_congr
    (toNat_zero_append 3 h0) sid) eid) h2) h3).symm

theorem zeroExtend_fields_standard (h0 : Byte) (sid : BitVec 3) :
    (h0 ++ sid).zeroExtend 32 = (0 : BitVec 21) ++ h0 ++ sid := by
  have hlt := (h0 ++ sid).isLt
  refine BitVec.eq_of_toNat_eq ?_
  rw [BitVec.toNat_setWidth, Nat.mod_eq_of_lt (by omega)]
  exact (toNat_append_congr (toNat_zero_append 21 h0) sid).symm

/-- The image of an identifier in its bits (44_can_tx.md R457). -/
theorem idImage_extended (id : BitVec 29) :
    idImage true id = [id.extractLsb' 21 8, id.extractLsb' 18 3 ++ (0b010 : BitVec 3) ++ id.extractLsb' 16 2,
      id.extractLsb' 8 8, id.extractLsb' 0 8] := by
  rw [idImage, if_pos rfl, sidl_extended]

theorem idImage_standard (id : BitVec 29) :
    idImage false id = [id.extractLsb' 3 8, id.extractLsb' 0 3 ++ (0b00000 : BitVec 5), 0x00, 0x00] := by
  rw [idImage, if_neg Bool.false_ne_true, sidl_standard]

/-- An extended frame is decoded from its image and DLC byte. -/
theorem decodeHeader_extended (rtr : Bool) (id : BitVec 29) (dlc : BitVec 4) :
    decodeHeader (id.extractLsb' 21 8)
      (((id.extractLsb' 18 3).zeroExtend 8 <<< 5) ||| 0x08 ||| (id.extractLsb' 16 2).zeroExtend 8)
      (id.extractLsb' 8 8) (id.extractLsb' 0 8) (dlcByte rtr (dlc.zeroExtend 8)) =
        ⟨true, rtr, id.zeroExtend 32, dlc⟩ := by
  have hsidl := sidl_received_extended (id.extractLsb' 18 3) (id.extractLsb' 16 2)
    (((id.extractLsb' 18 3).zeroExtend 8 <<< 5) ||| 0x08 ||| (id.extractLsb' 16 2).zeroExtend 8)
  have hdlc := dlc_received_extended rtr dlc (dlcByte rtr (dlc.zeroExtend 8))
  rw [mergeBits_self] at hsidl hdlc
  obtain ⟨hide, hsid, heid⟩ := hsidl
  obtain ⟨hrtr, hlength⟩ := hdlc
  rw [decodeHeader, hide, hsid, heid, hrtr, hlength, append_fields_extended]
  rfl

/-- A standard frame is decoded from its image, with the remote request in SIDL bit 4. -/
theorem decodeHeader_standard (rtr : Bool) (id : BitVec 11) (dlc : BitVec 4) (h2 h3 : Byte) :
    decodeHeader ((id.zeroExtend 29).extractLsb' 3 8)
      (((id.zeroExtend 29).extractLsb' 0 3).zeroExtend 8 <<< 5 ||| (if rtr then 0x10 else 0x00)) h2 h3
      (dlc.zeroExtend 8) = ⟨false, rtr, id.zeroExtend 32, dlc⟩ := by
  have hsidl := sidl_received_standard ((id.zeroExtend 29).extractLsb' 0 3) rtr
    (((id.zeroExtend 29).extractLsb' 0 3).zeroExtend 8 <<< 5 ||| (if rtr then 0x10 else 0x00))
  have hdlc := dlc_received_standard dlc (dlc.zeroExtend 8)
  rw [mergeBits_self] at hsidl hdlc
  obtain ⟨hide, hrtr, hsid⟩ := hsidl
  have hid : ((id.zeroExtend 29).extractLsb' 0 11) = id := by
    ext i hi
    simp [show i < 29 by omega, BitVec.getLsbD_eq_getElem hi]
  rw [decodeHeader, hide, hrtr, hsid, hdlc, BitVec.extractLsb'_append_extractLsb'_eq_extractLsb' (by decide)]
  exact congrArg (fun i : BitVec 11 => RxHeader.mk false rtr (i.zeroExtend 32) dlc) hid

/-- Settles O57: the bits of the header and of the image, and the two kinds of frame. -/
theorem headerDecodesTheImage : Obligations.HeaderDecodesTheImage := by
  refine ⟨fun h0 h1 h2 h3 h4 => ?header, fun id => ⟨idImage_extended id, idImage_standard id⟩,
    decodeHeader_extended, decodeHeader_standard⟩
  rw [decodeHeader]
  split
  · rw [zeroExtend_fields_extended]
  · rw [zeroExtend_fields_standard]

end Sys2Proof.Machine
end


section
/-! PROOF. The order in which the chip sends (44_can_tx.md R458 to R460): what each thing that happens in the chip, and
each write of a transmit control register, does to the pending frames, and with it O54. -/

namespace Sys2Proof.Machine

/-! ### Pending frames of the reference chip -/

/-- Invariant I of 44_can_tx.md R459 of the reference chip, whose priorities are remembered as `sp`. -/
structure Chip.SendsInOrder (c : Chip) (sp : Vector (Fin 4) 3) (order : List (Fin 3)) : Prop where
  nodup : order.Nodup
  pending : ∀ x, x ∈ order ↔ c.txreq mcp2515 x = true
  recorded : ∀ x ∈ order, (sp[x]).val = c.txp mcp2515 x
  ranked : order.Pairwise fun x y => slotRank sp y < slotRank sp x
  sending : ∀ f, c.onBus = some f → order.head? = some f.slot

section
variable {c d : Chip} {sp : Vector (Fin 4) 3} {order : List (Fin 3)} {x : Fin 3}

theorem Chip.rank_of_recorded (h : (sp[x]).val = c.txp mcp2515 x) : c.rank mcp2515 x = slotRank sp x := by
  rw [Chip.rank, ← h, slotRank]

theorem State.sendsInOrder_iff {s : State} (hm : s.cfg.chip = mcp2515) :
    s.SendsInOrder order ↔ s.chip.SendsInOrder s.can.slotPrio order := by
  constructor
  · intro h
    have recorded : ∀ x ∈ order, (s.can.slotPrio[x]).val = s.chip.txp mcp2515 x := hm ▸ h.recorded
    refine ⟨h.nodup, hm ▸ h.pending, recorded, h.ranked.imp_of_mem fun hx hy hr => ?_, h.sending⟩
    rwa [hm, Chip.rank_of_recorded (recorded _ hx), Chip.rank_of_recorded (recorded _ hy)] at hr
  · intro h
    refine ⟨h.nodup, hm ▸ h.pending, hm ▸ h.recorded, h.ranked.imp_of_mem fun hx hy hr => ?_, h.sending⟩
    rwa [hm, Chip.rank_of_recorded (h.recorded _ hx), Chip.rank_of_recorded (h.recorded _ hy)]

/-- With nothing pending it does not matter what is remembered. -/
theorem Chip.SendsInOrder.none_pending (h : c.SendsInOrder sp []) (sp' : Vector (Fin 4) 3) : c.SendsInOrder sp' [] :=
  ⟨h.nodup, h.pending, nofun, .nil, h.sending⟩

/-! ### What leaves the pending frames alone -/

/-- No slot's request or priority has changed, nothing has been sent, and no frame has come on the bus. -/
structure Chip.KeepsPending (c d : Chip) : Prop where
  txreq : ∀ x, d.txreq mcp2515 x = c.txreq mcp2515 x
  txp : ∀ x, d.txp mcp2515 x = c.txp mcp2515 x
  onBus : ∀ f, d.onBus = some f → c.onBus = some f
  sent : d.sent = c.sent

theorem Chip.KeepsPending.refl (c : Chip) : c.KeepsPending c := ⟨fun _ => rfl, fun _ => rfl, fun _ => id, rfl⟩

theorem Chip.KeepsPending.trans {e : Chip} (h : c.KeepsPending d) (k : d.KeepsPending e) : c.KeepsPending e :=
  ⟨fun x => (k.txreq x).trans (h.txreq x), fun x => (k.txp x).trans (h.txp x), fun f hf => h.onBus f (k.onBus f hf),
    k.sent.trans h.sent⟩

theorem Chip.SendsInOrder.of_keepsPending (h : c.SendsInOrder sp order) (k : c.KeepsPending d) :
    d.SendsInOrder sp order :=
  ⟨h.nodup, fun x => by rw [k.txreq]; exact h.pending x, fun x hx => by rw [k.txp]; exact h.recorded x hx, h.ranked,
    fun f hf => h.sending f (k.onBus f hf)⟩

/-- The request and the priority of a slot are bits of its control register. -/
theorem Chip.KeepsPending.of_ctrl (hreg : ∀ x, d.reg (mcp2515.ctrl x) = c.reg (mcp2515.ctrl x))
    (hbus : ∀ f, d.onBus = some f → c.onBus = some f) (hsent : d.sent = c.sent) : c.KeepsPending d :=
  ⟨fun x => by rw [Chip.txreq, hreg]; rfl, fun x => by rw [Chip.txp, hreg]; rfl, hbus, hsent⟩

theorem Chip.KeepsPending.put (c : Chip) {a : Byte} (ha : ∀ x, a ≠ mcp2515.ctrl x) (v : Byte) :
    c.KeepsPending (c.put a v) :=
  .of_ctrl (fun x => Chip.reg_put_other c v (ha x)) (fun _ => id) rfl

theorem Chip.onBus_writeAt_some {m : ChipTable} {a : Nat} {v : Byte} {f : TxFrame}
    (h : (c.writeAt m a v).onBus = some f) : c.onBus = some f := by
  unfold Chip.writeAt at h
  split at h
  · exact h
  · rw [Chip.dropAborted_onBus] at h
    exact (Option.filter_eq_some_iff.mp h).1

theorem Chip.KeepsPending.writeAt (c : Chip) {a : Nat} (ha : ∀ x, a ≠ (mcp2515.ctrl x).toNat) (v : Byte) :
    c.KeepsPending (c.writeAt mcp2515 a v) :=
  .of_ctrl (fun x => (Chip.cell_writeAt c mcp2515 a _ v).trans (if_neg fun e => ha x e.1))
    (fun _ => Chip.onBus_writeAt_some) (Chip.writeAt_sent _ _ _ _)

/-- A write of `n` bytes from an address on reaches no transmit control register. -/
abbrev SparesControl (a n : Nat) : Prop := ∀ x, (mcp2515.ctrl x).toNat < a ∨ a + n ≤ (mcp2515.ctrl x).toNat

theorem Chip.KeepsPending.writeList : ∀ (vs : List Byte) (c : Chip) {a : Nat}, SparesControl a vs.length →
    c.KeepsPending (c.writeList mcp2515 a vs)
  | [], c, _, _ => .refl c
  | v :: vs, c, a, ha => by
    have hfirst : ∀ x, a ≠ (mcp2515.ctrl x).toNat := fun x => by
      have := ha x
      simp only [List.length_cons] at this
      omega
    have hrest : SparesControl (a + 1) vs.length := fun x => by
      have := ha x
      have := hfirst x
      simp only [List.length_cons] at *
      omega
    rw [Chip.writeList]
    exact (writeAt c hfirst v).trans (writeList vs _ hrest)

theorem Chip.KeepsPending.bitModify (c : Chip) {a : Nat} (ha : ∀ x, a ≠ (mcp2515.ctrl x).toNat) (k v : Byte) :
    c.KeepsPending (c.bitModify mcp2515 a k v) := by
  unfold Chip.bitModify
  split
  · exact .writeAt c ha _
  · exact .writeAt c ha _

theorem Chip.KeepsPending.release (c : Chip) (b : Fin 2) : c.KeepsPending (c.release mcp2515 b) :=
  .put c (by decide) _

/-! ### What happens in the chip and sends nothing -/

theorem Chip.KeepsPending.recordError (c : Chip) (flags : Byte) : c.KeepsPending (c.recordError mcp2515 flags) := by
  have hrecorded := Chip.recordError_recorded c flags
  have hctrl : ∀ x, mcp2515.ctrl x ∉ ([0x2C, 0x2D] : List Byte) := by decide
  exact .of_ctrl (fun x => Chip.reg_recordError_other c flags (hctrl x)) (fun f hf => hrecorded.onBus ▸ hf)
    hrecorded.sent

theorem Chip.KeepsPending.busError (c : Chip) (flags tx rx : Byte) :
    c.KeepsPending (c.busError mcp2515 flags tx rx) := by
  obtain ⟨hrecorded, -, -⟩ := Chip.busError_recorded c flags tx rx
  have hctrl : ∀ x, mcp2515.ctrl x ∉ ([0x1C, 0x1D, 0x2C, 0x2D] : List Byte) := by decide
  exact .of_ctrl (fun x => Chip.reg_busError_other c flags tx rx (hctrl x)) (fun f hf => hrecorded.onBus ▸ hf)
    hrecorded.sent

theorem Chip.putList_frame : ∀ (vs : List Byte) (c : Chip) (a : Nat),
    (c.putList a vs).onBus = c.onBus ∧ (c.putList a vs).sent = c.sent
  | [], _, _ => ⟨rfl, rfl⟩
  | v :: vs, c, a => by
    obtain ⟨hbus, hsent⟩ := Chip.putList_frame vs { c with regs := c.regs.setIfInBounds a v } (a + 1)
    exact ⟨hbus, hsent⟩

/-- The receive buffers lie above the transmit control registers. -/
theorem Chip.KeepsPending.fill (c : Chip) (b : Fin 2) (f : CanFrame) (n : Nat) :
    c.KeepsPending (c.fill mcp2515 b f n) := by
  obtain ⟨hbus, hsent⟩ := Chip.putList_frame (rxImage f n ++ framePayload f) c (mcp2515.rxSidh b)
  have hbelow : ∀ (x : Fin 3) (b : Fin 2), (mcp2515.ctrl x).toNat < mcp2515.rxSidh b := by decide
  have hput : c.KeepsPending (c.putList (mcp2515.rxSidh b) (rxImage f n ++ framePayload f)) :=
    .of_ctrl (fun x => Chip.cell_putList_other _ _ _ _ (.inl (hbelow x b))) (fun g hg => hbus ▸ hg) hsent
  exact hput.trans (.put _ (by decide) _)

theorem Chip.KeepsPending.receive (c : Chip) (f : CanFrame) (n : Nat) : c.KeepsPending (c.receive mcp2515 f n) := by
  rcases Chip.receive_cases c f n with h | ⟨b, h⟩ | ⟨b, -, h⟩
  · rw [h]; exact .refl c
  · rw [h]; exact .recordError c _
  · rw [h]; exact .fill c b f _

/-- Of TXBsCTRL the chip changes neither the request nor the priority on its own (93_implementation_defined.md U3). -/
theorem Chip.KeepsPending.poke (c : Chip) (a : Fin 128) (v : Byte) : c.KeepsPending (c.poke mcp2515 a.val v) := by
  have hown : ∀ x, (ownBits (mcp2515.ctrl x).toNat).getLsbD 3 = false ∧
      (ownBits (mcp2515.ctrl x).toNat).extractLsb' 0 2 = 0 := by decide
  have hreg : ∀ x, (c.poke mcp2515 a.val v).reg (mcp2515.ctrl x) = c.reg (mcp2515.ctrl x) ∨
      (c.poke mcp2515 a.val v).reg (mcp2515.ctrl x) =
        mergeBits (ownBits (mcp2515.ctrl x).toNat) (c.reg (mcp2515.ctrl x)) v := fun x => by
    have hcell : (c.poke mcp2515 a.val v).reg (mcp2515.ctrl x) = if a.val = (mcp2515.ctrl x).toNat ∧
        (mcp2515.ctrl x).toNat < 128 then mergeBits (mcp2515.info a.val).own (c.cell a.val) v
        else c.reg (mcp2515.ctrl x) := getD_setIfInBounds _ _ _ _
    rw [hcell]
    split
    next h => rw [h.1, mcp2515_info h.2]; exact .inr rfl
    next => exact .inl rfl
  refine ⟨fun x => ?_, fun x => ?_, fun _ => id, rfl⟩
  · rcases hreg x with h | h
    · rw [Chip.txreq, h]; rfl
    · rw [Chip.txreq, h, mcp2515_txreq, getLsbD_mergeBits]
      exact if_neg (ne_true_of_eq_false (hown x).1)
  · rcases hreg x with h | h
    · rw [Chip.txp, h]; rfl
    · rw [Chip.txp, h, mcp2515_txp]
      exact congrArg BitVec.toNat (extractLsb'_mergeBits_old (hown x).2 _ _)

/-- Only the start and the completion of a frame do more. -/
theorem Chip.KeepsPending.act (c : Chip) {e : ChipEvent} (hstart : e ≠ .start) (hcomplete : e ≠ .complete) (n : Nat) :
    c.KeepsPending (c.act mcp2515 e n) := by
  cases e with
  | receive f => exact .receive c f n
  | start => exact absurd rfl hstart
  | complete => exact absurd rfl hcomplete
  | lose => exact ⟨fun _ => rfl, fun _ => rfl, nofun, rfl⟩
  | enterMode => exact .put c (by decide) _
  | busError flags tx rx => exact .busError c flags tx rx
  | poke a v => exact .poke c a v

/-! ### The start of a frame (44_can_tx.md R458) -/

theorem Chip.better_pending {y : Option (Fin 3)} (hy : ∀ z, y = some z → c.txreq mcp2515 z = true) (w z : Fin 3)
    (h : c.better mcp2515 y w = some z) : c.txreq mcp2515 z = true := by
  unfold Chip.better at h
  split at h
  next hw =>
    split at h
    next => cases h; exact hw
    next v =>
      split at h
      · cases h; exact hw
      · cases h; exact hy _ rfl
  next => exact hy z h

section
variable (hx : c.txreq mcp2515 x = true)
  (hbest : ∀ z, c.txreq mcp2515 z = true → z ≠ x → c.rank mcp2515 z < c.rank mcp2515 x)
include hbest

/-- No pending slot is better than one that ranks above every other. -/
theorem Chip.better_of_best (w : Fin 3) : c.better mcp2515 (some x) w = some x := by
  unfold Chip.better
  split
  next hw =>
    refine if_neg fun hlt => ?_
    by_cases hwx : w = x
    · exact Nat.lt_irrefl _ (hwx ▸ hlt)
    · exact Nat.lt_asymm hlt (hbest w hw hwx)
  next => rfl

include hx

/-- A slot that ranks above every other is better than any that is pending. -/
theorem Chip.better_best {y : Option (Fin 3)} (hy : ∀ z, y = some z → c.txreq mcp2515 z = true) :
    c.better mcp2515 y x = some x := by
  unfold Chip.better
  rw [if_pos hx]
  split
  next => rfl
  next z =>
    by_cases hzx : z = x
    · rw [hzx, ite_self]
    · exact if_pos (hbest z (hy z rfl) hzx)

theorem Chip.foldl_better : ∀ (slots : List (Fin 3)) {y : Option (Fin 3)},
    (∀ z, y = some z → c.txreq mcp2515 z = true) → y = some x ∨ x ∈ slots →
      slots.foldl (c.better mcp2515) y = some x
  | [], _, _, h => by simpa using h
  | w :: slots, y, hy, h => by
    refine Chip.foldl_better slots (Chip.better_pending hy w) ?_
    rcases h with rfl | h
    · exact .inl (Chip.better_of_best hbest w)
    · rcases List.mem_cons.mp h with rfl | h
      · exact .inl (Chip.better_best hx hbest hy)
      · exact .inr h

end

/-- The next slot is the oldest of those that are pending. -/
theorem Chip.SendsInOrder.nextSlot (h : c.SendsInOrder sp order) : c.nextSlot mcp2515 = order.head? := by
  cases order with
  | nil =>
    have hnone : ∀ x, c.txreq mcp2515 x = false := fun x => by simpa using (h.pending x).symm
    simp [Chip.nextSlot, Chip.better, hnone]
  | cons x order =>
    have hx := (h.pending x).mp List.mem_cons_self
    have hslot : ∀ x : Fin 3, x ∈ [0, 1, 2] := by decide
    refine Chip.foldl_better hx (fun z hz hne => ?_) [0, 1, 2] nofun (.inr (hslot x))
    have hmem := (h.pending z).mpr hz
    have hlater : z ∈ order := (List.mem_cons.mp hmem).resolve_left hne
    rw [Chip.rank_of_recorded (h.recorded z hmem), Chip.rank_of_recorded (h.recorded x List.mem_cons_self)]
    exact List.rel_of_pairwise_cons h.ranked hlater

theorem Chip.start_of_free (hbus : c.onBus = none) (hmode : c.modeSends mcp2515 = true) : c.start mcp2515 =
    { c with onBus := (c.nextSlot mcp2515).map fun x => ⟨x, c.slotBytes mcp2515 x⟩ } := by
  simp [Chip.start, hbus, hmode]

/-- A frame that is put on the bus is the oldest, and all are as pending as they were. -/
theorem Chip.SendsInOrder.start (h : c.SendsInOrder sp order) : (c.start mcp2515).SendsInOrder sp order := by
  unfold Chip.start
  split
  · exact h
  · refine ⟨h.nodup, h.pending, h.recorded, h.ranked, fun f hf => ?_⟩
    obtain ⟨x, hx, rfl⟩ := Option.map_eq_some_iff.mp hf
    rw [← h.nextSlot, hx]

theorem Chip.start_sent (c : Chip) (m : ChipTable) : (c.start m).sent = c.sent := by unfold Chip.start; split <;> rfl

/-! ### The completion of a frame (44_can_tx.md R458) -/

theorem ctrl_injective : ∀ x y, mcp2515.ctrl x = mcp2515.ctrl y → x = y := by decide

section
variable {f : TxFrame} (hbus : c.onBus = some f)
include hbus

theorem Chip.complete_of_onBus : c.complete mcp2515 =
    { (c.put (mcp2515.ctrl f.slot) (c.reg (mcp2515.ctrl f.slot) &&& ~~~bitByte 3)).raise mcp2515
        (bitByte mcp2515.txif[f.slot]) with
      onBus := none
      sent := c.sent ++ [f] } := by
  unfold Chip.complete
  rw [hbus]
  rfl

theorem Chip.reg_complete (z : Fin 3) : (c.complete mcp2515).reg (mcp2515.ctrl z) =
    if f.slot = z then c.reg (mcp2515.ctrl z) &&& ~~~bitByte 3 else c.reg (mcp2515.ctrl z) := by
  have hintf : ∀ z, mcp2515.canintf ≠ mcp2515.ctrl z := by decide
  have hmap : ∀ z, (mcp2515.ctrl z).toNat < 128 := by decide
  rw [Chip.complete_of_onBus hbus]
  refine (Chip.reg_put_other _ _ (hintf z)).trans ((Chip.reg_put c _ _ _).trans ?_)
  by_cases hz : f.slot = z
  · rw [if_pos hz, hz, if_pos ⟨rfl, hmap z⟩]
  · rw [if_neg hz, if_neg fun e => hz (ctrl_injective _ _ e.1)]

/-- The request of the slot is taken back, and no other. -/
theorem Chip.txreq_complete (z : Fin 3) :
    (c.complete mcp2515).txreq mcp2515 z = (c.txreq mcp2515 z && !decide (f.slot = z)) := by
  rw [Chip.txreq, Chip.reg_complete hbus]
  by_cases hz : f.slot = z
  · rw [if_pos hz, mcp2515_txreq, BitVec.getLsbD_and, BitVec.getLsbD_not, getLsbD_bitByte (by decide)]
    simp [hz]
  · simp [hz, Chip.txreq]

theorem Chip.txp_complete (z : Fin 3) : (c.complete mcp2515).txp mcp2515 z = c.txp mcp2515 z := by
  rw [Chip.txp, Chip.reg_complete hbus]
  split
  · have hmask : ∀ v : Byte, (v &&& ~~~bitByte 3).extractLsb' 0 2 = v.extractLsb' 0 2 := by decide
    rw [mcp2515_txp]
    exact congrArg BitVec.toNat (hmask _)
  · rfl

theorem Chip.complete_sent : (c.complete mcp2515).sent = c.sent ++ [f] ∧ (c.complete mcp2515).onBus = none := by
  rw [Chip.complete_of_onBus hbus]
  exact ⟨rfl, rfl⟩

end

/-- The frame that has been sent was the oldest, and its slot is free. -/
theorem Chip.SendsInOrder.complete {f : TxFrame} (h : c.SendsInOrder sp (x :: order)) (hbus : c.onBus = some f) :
    f.slot = x ∧ (c.complete mcp2515).SendsInOrder sp order := by
  have hslot : f.slot = x := Option.some.inj (h.sending f hbus).symm
  obtain ⟨hnotMem, hnodup⟩ := List.nodup_cons.mp h.nodup
  refine ⟨hslot, hnodup, fun z => ?_, fun z hz => ?_, h.ranked.of_cons, ?_⟩
  · have hz := h.pending z
    rw [Chip.txreq_complete hbus, hslot, Bool.and_eq_true, ← hz, List.mem_cons]
    by_cases hzx : x = z
    · simpa [hzx] using hzx ▸ hnotMem
    · simp [hzx, Ne.symm hzx]
  · rw [Chip.txp_complete hbus]
    exact h.recorded z (List.mem_cons_of_mem x hz)
  · rw [(Chip.complete_sent hbus).2]
    nofun

end

end Sys2Proof.Machine
end


section
/-! PROOF. What a write of a transmit control register does to the pending frames (44_can_tx.md R454, R456, R460), and
that the chip sends the oldest (O54). -/

namespace Sys2Proof.Machine

section
variable {c : Chip} {sp : Vector (Fin 4) 3} {order : List (Fin 3)} {x : Fin 3}

/-! ### A transmit control register (43_can_config.md R401) -/

section
variable (c : Chip) (x z : Fin 3) (v : Byte)

theorem Chip.reg_writeCtrl : (c.writeAt mcp2515 (mcp2515.ctrl x).toNat v).reg (mcp2515.ctrl z) =
    if x = z then mergeBits 0x0B (c.reg (mcp2515.ctrl z)) v else c.reg (mcp2515.ctrl z) := by
  have hreg : ∀ x, (mcp2515.ctrl x).toNat < 128 ∧ configOnly (mcp2515.ctrl x).toNat = false ∧
      writableBits (mcp2515.ctrl x).toNat = 0x0B := by decide
  obtain ⟨hmap, hconf, hbits⟩ := hreg x
  have hwrite := Chip.reg_writeOne c hmap hconf v (mcp2515.ctrl z)
  rw [hbits] at hwrite
  refine hwrite.trans ?_
  by_cases hxz : x = z
  · rw [if_pos hxz, hxz, if_pos rfl]
  · rw [if_neg hxz, if_neg fun e => hxz (ctrl_injective _ _ e)]

theorem Chip.txreq_writeCtrl : (c.writeAt mcp2515 (mcp2515.ctrl x).toNat v).txreq mcp2515 z =
    if x = z then v.getLsbD 3 else c.txreq mcp2515 z := by
  rw [Chip.txreq, Chip.reg_writeCtrl]
  split
  · exact (getLsbD_mergeBits _ _ _ 3).trans (if_pos rfl)
  · rfl

theorem Chip.txp_writeCtrl : (c.writeAt mcp2515 (mcp2515.ctrl x).toNat v).txp mcp2515 z =
    if x = z then v.toNat % 4 else c.txp mcp2515 z := by
  rw [Chip.txp, Chip.reg_writeCtrl]
  split
  · have hnew : (mergeBits 0x0B (c.reg (mcp2515.ctrl z)) v).extractLsb' 0 2 = v.extractLsb' 0 2 := by
      rw [mergeBits, BitVec.or_comm]
      exact extractLsb'_mergeBits_old (k := 0xF4) (by decide) v (c.reg (mcp2515.ctrl z))
    exact (congrArg BitVec.toNat hnew).trans (BitVec.extractLsb'_toNat 0 2 v)
  · rfl

/-- A frame stays on the bus while its slot is pending. -/
theorem Chip.onBus_writeAt_of_pending {a : Nat} {f : TxFrame} (h : c.onBus = some f)
    (hpending : (c.writeAt mcp2515 a v).txreq mcp2515 f.slot = true) : (c.writeAt mcp2515 a v).onBus = some f := by
  unfold Chip.writeAt at hpending ⊢
  split at hpending
  next hi => rw [if_pos hi]; exact h
  next hi =>
    rw [if_neg hi, Chip.dropAborted_onBus, h]
    exact Option.filter_eq_some_iff.mpr ⟨rfl, hpending⟩

/-- A rewrite of a priority is a write of the register with its other bits as they are (44_can_tx.md R454). -/
theorem Chip.modifyPrio_eq : c.bitModify mcp2515 (mcp2515.ctrl x).toNat 0x03 v =
    c.writeAt mcp2515 (mcp2515.ctrl x).toNat (mergeBits 0x03 (c.reg (mcp2515.ctrl x)) v) := by
  have hsupports : ∀ x, supportsBitModify (mcp2515.ctrl x).toNat = true := by decide
  exact Chip.bitModify_eq c mcp2515 _ _ v ((mcp2515_bitModify _).trans (hsupports x))

/-- A rewrite of a priority takes no request back and makes none. -/
theorem Chip.txreq_modifyPrio :
    (c.bitModify mcp2515 (mcp2515.ctrl x).toNat 0x03 v).txreq mcp2515 z = c.txreq mcp2515 z := by
  rw [Chip.modifyPrio_eq, Chip.txreq_writeCtrl]
  split
  next h => rw [getLsbD_mergeBits, h]; rfl
  next => rfl

theorem Chip.txp_modifyPrio : (c.bitModify mcp2515 (mcp2515.ctrl x).toNat 0x03 v).txp mcp2515 z =
    if x = z then v.toNat % 4 else c.txp mcp2515 z := by
  have hfield : ∀ old : Byte, (mergeBits 0x03 old v).toNat % 4 = v.toNat % 4 := fun old => by
    have hbits : (mergeBits 0x03 old v).extractLsb' 0 2 = v.extractLsb' 0 2 := by
      rw [mergeBits, BitVec.or_comm]
      exact extractLsb'_mergeBits_old (k := 0xFC) (by decide) v old
    have := congrArg BitVec.toNat hbits
    rwa [BitVec.extractLsb'_toNat, BitVec.extractLsb'_toNat] at this
  rw [Chip.modifyPrio_eq, Chip.txp_writeCtrl, hfield]

/-- A rewrite of a priority leaves the frame on the bus there (44_can_tx.md R460). -/
theorem Chip.onBus_modifyPrio {f : TxFrame} (h : c.onBus = some f) (hpending : c.txreq mcp2515 f.slot = true) :
    (c.bitModify mcp2515 (mcp2515.ctrl x).toNat 0x03 v).onBus = some f := by
  have hkept := (Chip.txreq_modifyPrio c x f.slot v).trans hpending
  rw [Chip.modifyPrio_eq] at hkept ⊢
  exact Chip.onBus_writeAt_of_pending c _ h hkept

end

/-! ### The pending frames (44_can_tx.md R454, R456) -/

/-- A promotion that keeps the order of age keeps the pending frames in order. -/
theorem Chip.SendsInOrder.promote (h : c.SendsInOrder sp order) (q : Fin 4)
    (hage : KeepsOrder order sp (sp.set x q)) :
    (c.bitModify mcp2515 (mcp2515.ctrl x).toNat 0x03 (BitVec.ofNat 8 q.val)).SendsInOrder (sp.set x q) order := by
  have hq : ∀ q : Fin 4, (BitVec.ofNat 8 q.val).toNat % 4 = q.val := by decide
  refine ⟨h.nodup, fun z => ?pending, fun z hz => ?recorded,
    h.ranked.imp_of_mem fun hy hz hr => hage _ hy _ hz hr, fun f hf => ?sending⟩
  case pending =>
    rw [Chip.txreq_modifyPrio]
    exact h.pending z
  case recorded =>
    rw [Chip.txp_modifyPrio, getElem_set_slot, hq q]
    split
    · rfl
    · exact h.recorded z hz
  case sending =>
    rw [Chip.modifyPrio_eq] at hf
    exact h.sending f (Chip.onBus_writeAt_some hf)

/-- The request of a free slot with a rank below every pending one makes its frame the newest (44_can_tx.md R456,
R459). -/
theorem Chip.SendsInOrder.request (h : c.SendsInOrder sp order) (hx : x ∉ order) (p : Fin 4)
    (hnewest : ∀ y ∈ order, 4 * p.val + x.val < slotRank sp y) :
    (c.writeAt mcp2515 (mcp2515.ctrl x).toNat (requestByte mcp2515 p)).SendsInOrder (sp.set x p) (order ++ [x]) := by
  have hbyte : ∀ p, (requestByte mcp2515 p).getLsbD 3 = true ∧ (requestByte mcp2515 p).toNat % 4 = p.val := by decide
  obtain ⟨hreq, hprio⟩ := hbyte p
  have hne : ∀ y ∈ order, x ≠ y := by rintro y hy rfl; exact hx hy
  refine ⟨h.nodup.append (List.nodup_singleton x) (by simpa using hx), fun z => ?pending, fun z hz => ?recorded,
    ?ranked, fun f hf => ?sending⟩
  case pending =>
    rw [Chip.txreq_writeCtrl, hreq, List.mem_append, List.mem_singleton, h.pending]
    by_cases hxz : x = z
    · simp [hxz]
    · simp [hxz, Ne.symm hxz]
  case recorded =>
    rw [Chip.txp_writeCtrl, getElem_set_slot, hprio]
    by_cases hxz : x = z
    · rw [if_pos hxz, if_pos hxz]
    · rw [if_neg hxz, if_neg hxz]
      exact h.recorded z ((List.mem_append.mp hz).resolve_right (by simpa using Ne.symm hxz))
  case ranked =>
    refine List.pairwise_append.mpr ⟨h.ranked.imp_of_mem fun hy hz hr => ?_, List.pairwise_singleton _ _,
      fun y hy z hz => ?_⟩
    · rwa [slotRank_set_other _ (hne _ hy), slotRank_set_other _ (hne _ hz)]
    · cases List.mem_singleton.mp hz
      rw [slotRank_set_same, slotRank_set_other _ (hne y hy)]
      exact hnewest y hy
  case sending =>
    have hhead := h.sending f (Chip.onBus_writeAt_some hf)
    rw [List.head?_append, hhead]
    rfl

end

/-- Settles O54: the start, the completion and the loss of a frame, and a BIT MODIFY of a priority. -/
theorem chipSendsTheOldestFrame : Obligations.ChipSendsTheOldestFrame := by
  intro s x order hm hs
  have h := (State.sendsInOrder_iff hm).mp hs
  have outside (e : ChipEvent) : (outsideAct (.chip e) s).chip = s.chip.act mcp2515 e s.draws := by rw [← hm]; rfl
  have settled (e : ChipEvent) {rest : List (Fin 3)}
      (k : (s.chip.act mcp2515 e s.draws).SendsInOrder s.can.slotPrio rest) :
      (outsideAct (.chip e) s).SendsInOrder rest := by
    rw [← outside, ← outsideAct_can (.chip e) s] at k
    exact (State.sendsInOrder_iff (by rw [outsideAct_cfg, hm])).mpr k
  refine ⟨fun hbus hmode => ?start, fun f hbus => ⟨(h.complete hbus).1, ?complete, ?lose, fun hd y p => ?rewrite⟩⟩
  case start =>
    have hact : s.chip.act mcp2515 .start s.draws = s.chip.start mcp2515 := rfl
    refine ⟨?_, ?_, settled .start (hact ▸ h.start)⟩
    · rw [outside, hact, Chip.start_of_free hbus hmode, h.nextSlot]
      rfl
    · rw [outside, hact, Chip.start_sent]
  case complete =>
    obtain ⟨hsent, hfree⟩ := Chip.complete_sent hbus
    exact ⟨by rw [outside]; exact hsent, by rw [outside]; exact hfree, settled .complete (h.complete hbus).2⟩
  case lose =>
    have kept : s.chip.KeepsPending (s.chip.act mcp2515 .lose s.draws) := .act s.chip (by simp) (by simp) s.draws
    exact ⟨by rw [outside]; rfl, by rw [outside]; rfl, settled .lose (h.of_keepsPending kept)⟩
  case rewrite =>
    have hpending : s.chip.txreq mcp2515 f.slot = true :=
      (h.pending _).mp ((h.complete hbus).1 ▸ List.mem_cons_self)
    have hchip : (txnBitModify (mcp2515.ctrl y) 0x03 p s).chip =
        s.chip.bitModify mcp2515 (mcp2515.ctrl y).toNat 0x03 p := by
      rw [txnBitModify_chip, letOutside_of_nil hd, hm]
    rw [← mcp2515_ctrl]
    refine ⟨_, rfl, ?_, ?_, fun z => ?_, ?_⟩ <;> rw [hchip]
    · exact Chip.onBus_modifyPrio _ y p hbus hpending
    · exact Chip.bitModify_sent _ _ _ _ _
    · exact Chip.txreq_modifyPrio _ y z p
    · exact (Chip.txp_modifyPrio _ y y p).trans (if_pos rfl)

end Sys2Proof.Machine
end


section
/-! PROOF. Frames leave in the order in which they were accepted, over every step (44_can_tx.md R459, R460, R462) (O53).
Work on the serial bus that spares the transmit control registers only lets the chip send the oldest frames; a RESET
leaves none pending; and CAN_SEND keeps the order through its promotions and makes its frame the newest. -/

namespace Sys2Proof.Machine

/-! ### The oldest frames are sent -/

/-- From `c` to `d` the chip sends the oldest of the pending frames, and the others are the rest. -/
def Chip.SendsFirst (c d : Chip) (order rest : List (Fin 3)) : Prop :=
  ∃ sent, order = sent ++ rest ∧ d.sentSlots = c.sentSlots ++ sent

section
variable {c d e : Chip} {sp : Vector (Fin 4) 3} {order rest rest' : List (Fin 3)}

theorem Chip.SendsFirst.of_sent (h : d.sent = c.sent) (order : List (Fin 3)) : c.SendsFirst d order order :=
  ⟨[], rfl, by rw [Chip.sentSlots, h, List.append_nil]; rfl⟩

theorem Chip.SendsFirst.trans (h : c.SendsFirst d order rest) (k : d.SendsFirst e rest rest') :
    c.SendsFirst e order rest' := by
  obtain ⟨sent, rfl, hs⟩ := h
  obtain ⟨sent', rfl, ks⟩ := k
  exact ⟨sent ++ sent', (List.append_assoc _ _ _).symm, by rw [ks, hs, List.append_assoc]⟩

theorem Chip.SendsFirst.subset (h : c.SendsFirst d order rest) : ∀ x ∈ rest, x ∈ order := by
  obtain ⟨sent, rfl, -⟩ := h
  exact fun x hx => List.mem_append_right sent hx

/-- With nothing pending nothing is sent. -/
theorem Chip.SendsFirst.of_none (h : c.SendsFirst d [] rest) : rest = [] ∧ d.sentSlots = c.sentSlots := by
  obtain ⟨sent, hs, hslots⟩ := h
  obtain ⟨rfl, rfl⟩ := List.append_eq_nil_iff.mp hs.symm
  exact ⟨rfl, by rw [hslots, List.append_nil]⟩

/-- The chip sends some of the pending frames, the oldest first and in order, and leaves the others in order. -/
def Chip.Advances (c d : Chip) : Prop :=
  ∀ sp order, c.SendsInOrder sp order → ∃ rest, c.SendsFirst d order rest ∧ d.SendsInOrder sp rest

theorem Chip.Advances.trans (h : c.Advances d) (k : d.Advances e) : c.Advances e := by
  intro sp order hc
  obtain ⟨rest, hfirst, hd⟩ := h sp order hc
  obtain ⟨rest', kfirst, he⟩ := k sp rest hd
  exact ⟨rest', hfirst.trans kfirst, he⟩

theorem Chip.KeepsPending.advances (h : c.KeepsPending d) : c.Advances d :=
  fun _ order hc => ⟨order, .of_sent h.sent order, hc.of_keepsPending h⟩

theorem Chip.Advances.refl (c : Chip) : c.Advances c := (Chip.KeepsPending.refl c).advances

theorem Chip.Advances.complete (c : Chip) : c.Advances (c.complete mcp2515) := by
  intro sp order hc
  cases hbus : c.onBus with
  | none =>
    have hnothing : c.complete mcp2515 = c := by rw [Chip.complete, hbus]
    rw [hnothing]
    exact ⟨order, .of_sent rfl order, hc⟩
  | some f =>
    cases order with
    | nil => exact absurd (hc.sending f hbus) nofun
    | cons x order =>
      obtain ⟨hslot, hrest⟩ := hc.complete hbus
      refine ⟨order, ⟨[x], rfl, ?_⟩, hrest⟩
      rw [Chip.sentSlots, (Chip.complete_sent hbus).1, List.map_append, List.map_singleton, hslot]
      rfl

/-- Whatever happens in the chip, it sends the oldest frames only. -/
theorem Chip.Advances.act (c : Chip) (e : ChipEvent) (n : Nat) : c.Advances (c.act mcp2515 e n) := by
  by_cases hstart : e = .start
  · subst hstart
    exact fun sp order hc => ⟨order, .of_sent (Chip.start_sent c mcp2515) order, hc.start⟩
  · by_cases hcomplete : e = .complete
    · subst hcomplete
      exact .complete c
    · exact (Chip.KeepsPending.act c hstart hcomplete n).advances

end

/-! ### Work on the serial bus that spares the transmit control registers -/

/-- `t` comes from `s` by work in which the chip sends the oldest of the pending frames, and the rest stay as they were
accepted. -/
structure SendsOn (s t : State) : Prop where
  cfg : t.cfg = s.cfg
  slotPrio : t.can.slotPrio = s.can.slotPrio
  chip : s.cfg.chip = mcp2515 → s.chip.Advances t.chip

section
variable {s t u : State}

theorem SendsOn.refl (s : State) : SendsOn s s := ⟨rfl, rfl, fun _ => .refl s.chip⟩

theorem SendsOn.trans (h : SendsOn s t) (k : SendsOn t u) : SendsOn s u :=
  ⟨k.cfg.trans h.cfg, k.slotPrio.trans h.slotPrio, fun hm => (h.chip hm).trans (k.chip (by rw [h.cfg, hm]))⟩

theorem SameCan.sendsOn (h : SameCan s t) : SendsOn s t := ⟨h.cfg, by rw [h.can], fun _ => h.chip ▸ .refl s.chip⟩

theorem SendsOn.respond (h : SendsOn s t) (st : Status) (r : List Byte) : SendsOn s (respond st r t) :=
  ⟨h.cfg, h.slotPrio, h.chip⟩

theorem SendsOn.outsideAct (o : Outside) (s : State) : SendsOn s (outsideAct o s) := by
  refine ⟨outsideAct_cfg o s, by rw [outsideAct_can], fun hm => ?_⟩
  cases o with
  | chip e =>
    have hact : (Machine.outsideAct (.chip e) s).chip = s.chip.act mcp2515 e s.draws := by rw [← hm]; rfl
    exact hact ▸ .act s.chip e s.draws
  | wire p w => exact .refl s.chip

theorem SendsOn.outsideActs : ∀ (os : List Outside) (s : State), SendsOn s (outsideActs os s)
  | [], s => .refl s
  | o :: os, s => (SendsOn.outsideAct o s).trans (SendsOn.outsideActs os _)

theorem SendsOn.letOutside (s : State) : SendsOn s (letOutside s) := by
  unfold Machine.letOutside
  split
  · exact .refl s
  next os rest _ =>
    have htaken : SendsOn s { s with during := rest } := ⟨rfl, rfl, fun _ => .refl s.chip⟩
    exact htaken.trans (.outsideActs os _)

/-- A transaction: what happens outside, and then an exchange in which the chip keeps its pending frames. -/
theorem SendsOn.transaction (s : State) (n : Nat) (mosi reply : List Byte) {c : Chip}
    (h : s.cfg.chip = mcp2515 → (Machine.letOutside s).chip.KeepsPending c) :
    SendsOn s (((Machine.letOutside s).draw n).exchange mosi reply c) := by
  have hout := SendsOn.letOutside s
  exact ⟨hout.cfg, hout.slotPrio, fun hm => (hout.chip hm).trans (h hm).advances⟩

theorem SendsOn.txnRead (a : Byte) (s : State) : SendsOn s (txnRead a s).2 :=
  .transaction s 1 _ _ fun _ => .refl _

theorem SendsOn.txnReadStatus (s : State) : SendsOn s (txnReadStatus s).2 :=
  .transaction s 0 _ _ fun _ => .refl _

theorem SendsOn.txnReadRx (b : Fin 2) (s : State) : SendsOn s (txnReadRx b s).2 :=
  .transaction s 0 _ _ fun hm => by rw [letOutside_cfg, hm]; exact .release _ b

theorem SendsOn.txnWrite {a : Byte} {ds : List Byte} (h : SparesControl a.toNat ds.length) (s : State) :
    SendsOn s (txnWrite a ds s) :=
  .transaction s 0 _ _ fun hm => by rw [letOutside_cfg, hm]; exact .writeList ds _ h

theorem SendsOn.txnBitModify {a : Byte} (h : ∀ x, a.toNat ≠ (mcp2515.ctrl x).toNat) (k d : Byte) (s : State) :
    SendsOn s (txnBitModify a k d s) :=
  .transaction s 0 _ _ fun hm => by rw [letOutside_cfg, hm]; exact .bitModify _ h k d

theorem SparesControl.mono {a n k : Nat} (h : SparesControl a n) (hk : k ≤ n) : SparesControl a k := fun x => by
  have := h x
  omega

/-- A slot's registers lie between the transmit control registers. -/
theorem SendsOn.txnLoadTx (x : Fin 3) {ds : List Byte} (hlen : ds.length ≤ 13) (s : State) :
    SendsOn s (txnLoadTx x ds s) := by
  have hslot : ∀ x, SparesControl (mcp2515.txSidh x) 13 := by decide
  refine .transaction s 0 _ _ fun hm => ?_
  rw [letOutside_cfg, hm]
  exact .writeList ds _ ((hslot x).mono hlen)

end

/-! ### The operations that only use such work -/

theorem SendsOn.execCanReceive {s t : State} (h : execCanReceive s = .next t) : SendsOn s t := by
  unfold Machine.execCanReceive at h
  simp only at h
  have hpins : SendsOn s (samplePin .rx1 (samplePin .rx0 s).2).2 :=
    (SendsOn.letOutside s).trans (SendsOn.letOutside _)
  split at h
  · cases h; exact hpins.respond _ _
  next b _ =>
    cases h
    have hlast : ∀ u : State, SendsOn u { u with can := { u.can with rxLast := b } } :=
      fun u => ⟨rfl, rfl, fun _ => .refl u.chip⟩
    exact ((hpins.trans (hlast _)).trans (SendsOn.txnReadRx b _)).respond _ _

/-- A transaction of a self-test stage that is no RESET and reaches no transmit control register. -/
def testTxnSpares : TestTxn → Bool
  | .read _ | .readStatus | .readRx _ => true
  | .write a ds => SparesControl a.toNat ds.length
  | .bitModify a _ _ => ∀ x, a.toNat ≠ (mcp2515.ctrl x).toNat
  | .reset | .loadTx _ _ => false

theorem SendsOn.testTxn {x : TestTxn} (h : testTxnSpares x = true) (s : State) : SendsOn s (testTxn x s) := by
  cases x with
  | read a => exact .txnRead a s
  | write a ds => exact .txnWrite (of_decide_eq_true h) s
  | bitModify a k d => exact .txnBitModify (of_decide_eq_true h) k d s
  | readStatus => exact .txnReadStatus s
  | readRx b => exact .txnReadRx b s
  | reset => cases h
  | loadTx x ds => cases h

theorem SendsOn.testTxns : ∀ (xs : List TestTxn) (s : State), (∀ x ∈ xs, testTxnSpares x = true) →
    SendsOn s (testTxns xs s)
  | [], s, _ => .refl s
  | x :: xs, s, h => by
    obtain ⟨hx, hxs⟩ := List.forall_mem_cons.mp h
    exact (SendsOn.testTxn hx s).trans (SendsOn.testTxns xs _ hxs)

theorem SendsOn.testStages : ∀ (gs : List SelfTestStage) (s : State), (∀ g ∈ gs, ∀ x ∈ g.txns, testTxnSpares x = true) →
    SendsOn s (testStages gs s).2
  | [], s, _ => .refl s
  | g :: gs, s, h => by
    obtain ⟨hg, hgs⟩ := List.forall_mem_cons.mp h
    have hstage : SendsOn s (testStage g s).2 :=
      (SendsOn.testTxns g.txns s hg).trans <| (SendsOn.letOutside _).trans <|
        (SendsOn.letOutside _).trans (SendsOn.letOutside _)
    exact hstage.trans (SendsOn.testStages gs _ hgs)

section
variable {s t : State} (hm : s.cfg.chip = mcp2515)
include hm

/-- The configuration writes: up to four bytes from the address of CNF1 to CNF3, a mask or a filter. -/
theorem SendsOn.timingWrites (c1 c2 c3 : Byte) : SendsOn s (timingWrites c1 c2 c3 s) := by
  have hspares : ∀ a ∈ [mcp2515.cnf1, mcp2515.cnf2, mcp2515.cnf3], SparesControl a.toNat 1 := by
    decide
  unfold Machine.timingWrites
  rw [hm]
  exact (txnWrite (hspares _ (by simp)) _).trans <| (txnWrite (hspares _ (by simp)) _).trans <|
    txnWrite (hspares _ (by simp)) _

theorem SendsOn.maskWrites (m0 m1 m2 m3 : Byte) : SendsOn s (maskWrites m0 m1 m2 m3 s) := by
  have hspares : ∀ i : Fin 2, SparesControl mcp2515.rxm[i].toNat 4 := by decide
  unfold Machine.maskWrites
  rw [hm]
  exact (txnWrite (hspares 0) _).trans (txnWrite (hspares 1) _)

theorem SendsOn.codeWrites (c0 c1 c2 c3 : Byte) : SendsOn s (codeWrites c0 c1 c2 c3 s) := by
  have hspares : ∀ i : Fin 6, SparesControl mcp2515.rxf[i].toNat 4 := by decide
  unfold Machine.codeWrites
  rw [hm]
  exact (txnWrite (hspares 0) _).trans <| (txnWrite (hspares 1) _).trans <| (txnWrite (hspares 2) _).trans <|
    (txnWrite (hspares 3) _).trans <| (txnWrite (hspares 4) _).trans (txnWrite (hspares 5) _)

/-- What CAN_INIT writes after its RESET. -/
theorem SendsOn.initWrites : SendsOn (txnReset s) (initWrites s) := by
  have hmask := SendsOn.maskWrites (s := txnReset s) (by rw [txnReset_cfg, hm]) 0xFF 0xFF 0xFF 0xFF
  have hcode := SendsOn.codeWrites (s := Machine.maskWrites 0xFF 0xFF 0xFF 0xFF (txnReset s))
    (by rw [hmask.cfg, txnReset_cfg, hm]) 0x00 0x00 0x00 0x00
  have hrxb : SparesControl mcp2515.rxbctrl[0].toNat 1 := by decide
  have hinte : SparesControl mcp2515.caninte.toNat 1 := by decide
  unfold Machine.initWrites
  rw [hm]
  exact hmask.trans <| hcode.trans <| (txnWrite hrxb _).trans (txnWrite hinte _)

theorem SendsOn.execCanSetPreset {k : Byte} (h : execCanSetPreset k s = .next t) : SendsOn s t := by
  unfold Machine.execCanSetPreset at h
  split at h
  · cases h; exact (SendsOn.timingWrites hm _ _ _).respond _ _
  · cases h; exact (SendsOn.refl s).respond _ _

end

/-- A client operation that is no CAN_RESET, CAN_INIT or CAN_SEND and writes no transmit control register. -/
theorem SendsOn.exec {i : Instr} {s t : State} (hm : s.cfg.chip = mcp2515) (hc : i.opClass = .client)
    (hreset : i ≠ .canReset) (hinit : i ≠ .canInit) (hsend : ∀ f id n d, i ≠ .canSend f id n d)
    (hspares : ¬ WritesTransmitControl mcp2515 i) (h : exec i s = .next t) : SendsOn s t := by
  have hctrl : ∀ x, mcp2515.ctrl x ∈ mcp2515.txbctrl.toList := by decide
  by_cases hu : usesUsb i = true
  · exact (exec_sameCan hu h).sendsOn
  cases i with
  | canReset => exact absurd rfl hreset
  | canInit => exact absurd rfl hinit
  | canSend f id n d => exact absurd rfl (hsend f id n d)
  | canReadReg a => cases h; exact (SendsOn.txnRead a s).respond _ _
  | canWriteReg a d =>
    cases h
    have ha : ∀ x, a.toNat ≠ (mcp2515.ctrl x).toNat := fun x e =>
      hspares ⟨a, BitVec.eq_of_toNat_eq e ▸ hctrl x, .inl ⟨d, rfl⟩⟩
    have hone : SparesControl a.toNat 1 := fun x => by
      have := ha x
      omega
    exact (SendsOn.txnWrite (ds := [d]) hone s).respond _ _
  | canBitModify a k d =>
    cases h
    have ha : ∀ x, a.toNat ≠ (mcp2515.ctrl x).toNat := fun x e =>
      hspares ⟨a, BitVec.eq_of_toNat_eq e ▸ hctrl x, .inr ⟨k, d, rfl⟩⟩
    exact (SendsOn.txnBitModify ha k d s).respond _ _
  | canReadStatus => cases h; exact (SendsOn.txnReadStatus s).respond _ _
  | canSetTiming c1 c2 c3 => cases h; exact (SendsOn.timingWrites hm c1 c2 c3).respond _ _
  | canSetPreset k => exact .execCanSetPreset hm h
  | canSetMask m0 m1 m2 m3 => cases h; exact (SendsOn.maskWrites hm m0 m1 m2 m3).respond _ _
  | canSetCode c0 c1 c2 c3 => cases h; exact (SendsOn.codeWrites hm c0 c1 c2 c3).respond _ _
  | canReadErrflags => cases h; exact (SendsOn.txnRead _ s).respond _ _
  | canReceive => exact .execCanReceive h
  | spiReset | spiRead _ | spiWrite _ _ | spiBitModify _ _ _ | spiReadStatus | spiLoadTx _ _ | spiReadRx _ => cases hc
  | _ => exact absurd rfl hu

end Sys2Proof.Machine
end


section
/-! PROOF. The operations that do more to the pending frames, and the step (44_can_tx.md R459) (O53): CAN_RESET and
CAN_INIT leave none, CAN_SEND adds the newest. -/

namespace Sys2Proof.Machine

/-! ### CAN_RESET and CAN_INIT -/

section
variable {s t : State} {order : List (Fin 3)}

theorem Chip.SendsInOrder.reset (c : Chip) (n : Nat) (sp : Vector (Fin 4) 3) :
    (c.reset mcp2515 n).SendsInOrder sp [] := by
  refine ⟨.nil, fun x => ?_, nofun, .nil, ?_⟩
  · rw [Chip.txreq_reset]
    simp
  · rw [Chip.reset_onBus]
    nofun

/-- From `s` to `t` the chip sends some of the pending frames, and then a RESET leaves none pending. -/
def SendsThenNone (order : List (Fin 3)) (s t : State) : Prop :=
  ∃ rest, s.chip.SendsFirst t.chip order rest ∧ t.chip.SendsInOrder t.can.slotPrio []

theorem txnReset_sendsThenNone (hm : s.cfg.chip = mcp2515) (h : s.chip.SendsInOrder s.can.slotPrio order) :
    SendsThenNone order s (txnReset s) := by
  obtain ⟨rest, hfirst, -⟩ := (SendsOn.letOutside s).chip hm _ _ h
  rw [SendsThenNone, txnReset_chip, hm]
  exact ⟨rest, hfirst.trans (.of_sent (Chip.reset_sent _ _ _) rest), .reset _ _ _⟩

/-- With none pending, work that spares the transmit control registers leaves none pending. -/
theorem SendsThenNone.trans {u : State} (h : SendsThenNone order s t) (hm : t.cfg.chip = mcp2515) (k : SendsOn t u) :
    SendsThenNone order s u := by
  obtain ⟨rest, hfirst, hnone⟩ := h
  obtain ⟨rest', kfirst, knone⟩ := k.chip hm _ _ hnone
  obtain ⟨rfl, hsent⟩ := kfirst.of_none
  obtain ⟨sent, horder, hslots⟩ := hfirst
  exact ⟨rest, ⟨sent, horder, hsent.trans hslots⟩, knone.none_pending _⟩

/-- What the driver remembers and answers does not matter then. -/
theorem SendsThenNone.updates (h : SendsThenNone order s t) (can : Can) (r : Option Response) :
    SendsThenNone order s { t with can := can, response := r } := by
  obtain ⟨rest, hfirst, hnone⟩ := h
  exact ⟨rest, hfirst, hnone.none_pending _⟩

theorem execCanInit_sendsThenNone (hm : s.cfg.chip = mcp2515) (ht : s.cfg.selfTest = defaultSelfTest)
    (h : s.chip.SendsInOrder s.can.slotPrio order) (he : execCanInit s = .next t) : SendsThenNone order s t := by
  have htest : ∀ g ∈ defaultSelfTest.toList, ∀ x ∈ g.txns, testTxnSpares x = true := by decide
  have hrestore : ∀ cfg : Params, cfg.chip = mcp2515 → ∀ x ∈ restoreTxns cfg, testTxnSpares x = true := by
    intro cfg hcfg
    rw [restoreTxns, hcfg]
    simp only [List.forall_mem_cons]
    exact ⟨rfl, rfl, nofun⟩
  have hinit := SendsOn.initWrites hm
  have hstages := SendsOn.testStages defaultSelfTest.toList (initWrites s) htest
  have hm' : (testStages defaultSelfTest.toList (initWrites s)).2.cfg.chip = mcp2515 := by
    rw [hstages.cfg, hinit.cfg, txnReset_cfg, hm]
  have hend := SendsOn.testTxns _ (testStages defaultSelfTest.toList (initWrites s)).2 (hrestore s.cfg hm)
  have hreset := txnReset_sendsThenNone hm h
  unfold execCanInit at he
  rw [ht] at he
  cases he
  exact (hreset.trans (by rw [txnReset_cfg, hm]) (hinit.trans (hstages.trans hend))).updates _ _

/-! ### CAN_SEND (44_can_tx.md R450 to R456) -/

/-- The promotions keep the pending frames in order, one after another. -/
theorem promoteTxns_sends {busy : List (Fin 3)} : ∀ (ps : List (Fin 3 × Fin 4)) {s : State} {sp : Vector (Fin 4) 3}
    {order : List (Fin 3)}, s.cfg.chip = mcp2515 → s.chip.SendsInOrder sp order → (∀ x ∈ order, x ∈ busy) →
      PromotesInOrder busy sp ps →
      ∃ rest, s.chip.SendsFirst (promoteTxns ps s).chip order rest ∧
        (promoteTxns ps s).chip.SendsInOrder (promotePrios sp ps) rest
  | [], s, sp, order, _, h, _, _ => ⟨order, .of_sent rfl order, h⟩
  | (x, q) :: ps, s, sp, order, hm, h, hbusy, ⟨hage, hages⟩ => by
    obtain ⟨rest, hfirst, hrest⟩ := (SendsOn.letOutside s).chip hm _ _ h
    have hrestBusy : ∀ x ∈ rest, x ∈ busy := fun x hx => hbusy x (hfirst.subset x hx)
    have hpromoted := hrest.promote (x := x) q fun y hy z hz => hage y (hrestBusy y hy) z (hrestBusy z hz)
    have hchip : (txnBitModify (s.cfg.chip.ctrl x) s.cfg.chip.txpMask (s.cfg.chip.txpField q) s).chip =
        (letOutside s).chip.bitModify mcp2515 (mcp2515.ctrl x).toNat 0x03 (BitVec.ofNat 8 q.val) := by
      rw [txnBitModify_chip, hm, mcp2515_txpMask, mcp2515_txpField]
    rw [← hchip] at hpromoted
    obtain ⟨rest', kfirst, hrest'⟩ := promoteTxns_sends ps (by rw [txnBitModify_cfg, hm]) hpromoted hrestBusy hages
    refine ⟨rest', (hfirst.trans (.of_sent ?_ rest)).trans kfirst, hrest'⟩
    rw [hchip, Chip.bitModify_sent]

/-- An accepted frame is the newest: the request comes last, of a slot that was free, with the lowest rank. -/
theorem sendTxns_sends {busy : List (Fin 3)} {ch : TxChoice} {load : List Byte} {sp : Vector (Fin 4) 3}
    (hm : s.cfg.chip = mcp2515) (h : s.chip.SendsInOrder sp order) (hbusy : ∀ x ∈ order, x ∈ busy)
    (hch : ch.KeepsAge busy sp) (hload : load.length ≤ 13) :
    ∃ rest, s.chip.SendsFirst (sendTxns ch load s).chip order rest ∧
      (sendTxns ch load s).chip.SendsInOrder ((promotePrios sp ch.promos).set ch.slot ch.prio)
        (rest ++ [ch.slot]) := by
  obtain ⟨rest, hfirst, hrest⟩ := promoteTxns_sends ch.promos hm h hbusy hch.kept
  have hm' : (promoteTxns ch.promos s).cfg.chip = mcp2515 := by rw [promoteTxns_cfg, hm]
  have hloaded := (SendsOn.txnLoadTx ch.slot hload (promoteTxns ch.promos s)).trans (SendsOn.letOutside _)
  obtain ⟨rest', kfirst, hrest'⟩ := hloaded.chip hm' _ _ hrest
  have hpending := hfirst.trans kfirst
  have hrestBusy : ∀ x ∈ rest', x ∈ busy := fun x hx => hbusy x (hpending.subset x hx)
  have hrequest := hrest'.request (fun hx => hch.free (hrestBusy _ hx)) ch.prio
    fun y hy => hch.newest y (hrestBusy y hy)
  have hchip : (sendTxns ch load s).chip =
      (letOutside (txnLoadTx ch.slot load (promoteTxns ch.promos s))).chip.writeAt mcp2515 (mcp2515.ctrl ch.slot).toNat
        (requestByte mcp2515 ch.prio) := by
    rw [sendTxns, txnWrite_chip, txnLoadTx_cfg, hm', hm]
    rfl
  rw [← hchip] at hrequest
  refine ⟨rest', hpending.trans (.of_sent ?_ rest'), hrequest⟩
  rw [hchip, Chip.writeAt_sent]

/-- The frame is refused after no more than a READ STATUS, or accepted and the newest. -/
theorem execCanSend_sends {flags : Byte} {id : BitVec 32} {dlc : Byte} {data : Vector Byte 8}
    (hm : s.cfg.chip = mcp2515) (h : s.chip.SendsInOrder s.can.slotPrio order)
    (he : execCanSend flags id dlc data s = .next t) :
    (t.response = some ⟨.no, []⟩ ∧ SendsOn s t) ∨
      (t.response = some ⟨.ok, []⟩ ∧ ∃ rest x, s.chip.SendsFirst t.chip order rest ∧
        t.chip.SendsInOrder t.can.slotPrio (rest ++ [x])) := by
  by_cases hdlc : 15 < dlc.toNat
  · rw [execCanSend_invalid hdlc] at he
    cases he
    exact .inl ⟨rfl, (SendsOn.refl s).respond _ _⟩
  rw [Nat.not_lt] at hdlc
  have hstatus := SendsOn.txnReadStatus s
  cases hchoice : chooseSlot (busySlots s.cfg.chip ((letOutside s).chip.status s.cfg.chip)) s.can.slotPrio with
  | none =>
    rw [execCanSend_full hdlc hchoice] at he
    cases he
    exact .inl ⟨rfl, hstatus.respond _ _⟩
  | some ch =>
    rw [execCanSend_accepted hdlc hchoice] at he
    cases he
    have hage := chooseSlot_keepsAge (nodup_busySlots _ _) hchoice
    obtain ⟨rest, hfirst, hrest⟩ := hstatus.chip hm _ _ h
    have hbusy : ∀ x ∈ rest, x ∈ busySlots s.cfg.chip ((letOutside s).chip.status s.cfg.chip) := fun x hx => by
      rw [hm, mem_busySlots, slotBusy_status]
      exact (hrest.pending x).mp hx
    have hload : (operandBytes flags id dlc data).length ≤ 13 := by
      rw [← loadBytes_eq_operandBytes]
      exact length_loadBytes_le _ _ _ _ _
    obtain ⟨rest', kfirst, hrest'⟩ :=
      sendTxns_sends (s := (txnReadStatus s).2) (by rw [txnReadStatus_cfg, hm]) hrest hbusy hage hload
    refine .inr ⟨rfl, rest', ch.slot, hfirst.trans kfirst, ?_⟩
    have hcan : (sendTxns ch (operandBytes flags id dlc data) (txnReadStatus s).2).can = s.can := by simp
    simp only [respond, rememberSend, hcan]
    exact hrest'

end

/-! ### The step -/

/-- What an input does to the pending frames, as far as the request shows it. -/
inductive InputSends (order : List (Fin 3)) (i : Input) (s t : State) : Prop where
  | keeps (hreset : i ≠ .request [0x10]) (hinit : i ≠ .request [0x20])
    (hrefused : ∀ operands, i = .request (0x30 :: operands) → t.response ≠ some ⟨.ok, []⟩) (h : SendsOn s t)
  | resets (hi : i = .request [0x10] ∨ i = .request [0x20]) (h : SendsThenNone order s t)
  | accepts (operands : List Byte) (hi : i = .request (0x30 :: operands)) (hr : t.response = some ⟨.ok, []⟩)
    (rest : List (Fin 3)) (x : Fin 3) (hfirst : s.chip.SendsFirst t.chip order rest)
    (h : t.chip.SendsInOrder t.can.slotPrio (rest ++ [x]))

section
variable {s t : State} {order : List (Fin 3)}

theorem SendsOn.of_same (hcfg : t.cfg = s.cfg) (hcan : t.can = s.can) (hchip : t.chip = s.chip) : SendsOn s t :=
  ⟨hcfg, by rw [hcan], fun _ => hchip ▸ .refl s.chip⟩

theorem TokenOutcome.sendsOn {k : Token} (h : TokenOutcome s k t) : SendsOn s t := by
  cases h with
  | answers _ a => exact .of_same rfl rfl rfl
  | resets => apply SendsOn.of_same <;> simp [sieBusReset]
  | setup p => apply SendsOn.of_same <;> simp
  | sends0 _ ho => apply SendsOn.of_same <;> simp [ep0Sent]
  | receives0 _ data ho hl => apply SendsOn.of_same <;> simp [ep0Received]
  | sendsBulk _ ho => exact .of_same rfl rfl rfl
  | receivesBulk _ data ho hl => exact .of_same rfl rfl rfl

theorem SendsOn.sieSettle (s : State) : SendsOn s (sieSettle s) :=
  .of_same (sieSettle_cfg s) (sieSettle_can s) (sieSettle_chip s)

theorem InputSends.of_noRequest {i : Input} (hi : ∀ bytes, i ≠ .request bytes) (h : SendsOn s t) :
    InputSends order i s t :=
  .keeps (hi _) (hi _) (fun _ e => absurd e (hi _)) h

/-- A request of the client that decodes. -/
theorem InputSends.of_request {bytes : List Byte} {i : Instr} (hm : s.cfg.chip = mcp2515)
    (ht : s.cfg.selfTest = defaultSelfTest) (h : s.chip.SendsInOrder s.can.slotPrio order)
    (hd : decodeClient bytes = .ok i) (hspares : ¬ WritesTransmitControl mcp2515 i) (he : exec i s = .next t) :
    InputSends order (.request bytes) s t := by
  obtain ⟨-, hc, hbytes⟩ := decodeClient_isEncoding (m := mcp2515) hd
  by_cases hreset : i = .canReset
  · subst hreset
    cases he
    exact .resets (.inl (by rw [← hbytes]; rfl)) ((txnReset_sendsThenNone hm h).updates _ _)
  by_cases hinit : i = .canInit
  · subst hinit
    exact .resets (.inr (by rw [← hbytes]; rfl)) (execCanInit_sendsThenNone hm ht h he)
  have hnotReset : Input.request bytes ≠ .request [0x10] := by
    rintro ⟨⟩
    cases hd
    exact hreset rfl
  have hnotInit : Input.request bytes ≠ .request [0x20] := by
    rintro ⟨⟩
    cases hd
    exact hinit rfl
  by_cases hsend : ∃ f id n d, i = .canSend f id n d
  · obtain ⟨f, id, n, d, rfl⟩ := hsend
    rcases execCanSend_sends hm h he with ⟨hr, hon⟩ | ⟨hr, rest, x, hfirst, hrest⟩
    · exact .keeps hnotReset hnotInit (fun _ _ => by rw [hr]; simp) hon
    · exact .accepts _ (congrArg Input.request hbytes.symm) hr rest x hfirst hrest
  · have hno : ∀ f id n d, i ≠ .canSend f id n d := fun f id n d e => hsend ⟨f, id, n, d, e⟩
    refine .keeps hnotReset hnotInit (fun operands e => ?_) (.exec hm hc hreset hinit hno hspares he)
    cases e
    exact absurd (frameArgs_ok hd) hsend

theorem stepInput_sends {i : Input} (hm : s.cfg.chip = mcp2515) (ht : s.cfg.selfTest = defaultSelfTest)
    (h : s.chip.SendsInOrder s.can.slotPrio order)
    (hspares : ∀ bytes j, i = .request bytes → decodeClient bytes = .ok j → ¬ WritesTransmitControl mcp2515 j)
    (he : stepInput i s = .next t) : InputSends order i s t := by
  rcases stepInput_eq_next he with ⟨bytes, j, rfl, hd, hexec⟩ | ⟨bytes, op, rfl, hd, rfl⟩ | ⟨k, rfl, rfl⟩ |
    ⟨o, rfl, rfl⟩ | ⟨rfl, rfl⟩
  · exact .of_request hm ht h hd (hspares bytes j rfl hd) hexec
  · refine .keeps ?_ ?_ (fun _ _ => by simp [respond]) ((SendsOn.refl s).respond _ _)
    · rintro ⟨⟩
      cases hd
    · rintro ⟨⟩
      cases hd
  · exact .of_noRequest nofun (sieToken_outcome k s).sendsOn
  · exact .of_noRequest nofun (.outsideAct o s)
  · exact .of_noRequest nofun (.of_same rfl rfl rfl)

/-- The taking of the input and the SIE's settling leave the pending frames alone. -/
theorem InputSends.settled {i : Input} {inputs : List Input} (h : InputSends order i (s.accept inputs) t) :
    InputSends order i s (sieSettle t) := by
  cases h with
  | keeps hreset hinit hrefused hon =>
    have htaken : SendsOn s (s.accept inputs) := .of_same rfl rfl rfl
    exact .keeps hreset hinit (by rwa [sieSettle_response]) (htaken.trans (hon.trans (.sieSettle t)))
  | resets hi hnone =>
    refine .resets hi ?_
    rw [SendsThenNone, sieSettle_chip, sieSettle_can]
    exact hnone
  | accepts operands hi hr rest x hfirst hrest =>
    refine .accepts operands hi (by rwa [sieSettle_response]) rest x ?_ ?_
    · rw [sieSettle_chip]
      exact hfirst
    · rwa [sieSettle_chip, sieSettle_can]

/-- What the step from `s` to `t` owes to the pending frames (44_can_tx.md R459). -/
def KeepsSendOrder (order : List (Fin 3)) (s t : State) : Prop :=
  ∃ n ≤ order.length, t.chip.sentSlots = s.chip.sentSlots ++ order.take n ∧
    (s.nextDone = some (.request [0x10]) ∨ s.nextDone = some (.request [0x20]) → t.SendsInOrder []) ∧
    (∀ operands, s.nextDone = some (.request (0x30 :: operands)) → t.response = some ⟨.ok, []⟩ →
      ∃ x, t.SendsInOrder (order.drop n ++ [x])) ∧
    (s.nextDone ≠ some (.request [0x10]) → s.nextDone ≠ some (.request [0x20]) →
      (∀ operands, s.nextDone = some (.request (0x30 :: operands)) → t.response ≠ some ⟨.ok, []⟩) →
      t.SendsInOrder (order.drop n))

theorem KeepsSendOrder.of_sendsFirst {rest : List (Fin 3)} (hfirst : s.chip.SendsFirst t.chip order rest)
    (hreset : s.nextDone = some (.request [0x10]) ∨ s.nextDone = some (.request [0x20]) → t.SendsInOrder [])
    (haccept : ∀ operands, s.nextDone = some (.request (0x30 :: operands)) → t.response = some ⟨.ok, []⟩ →
      ∃ x, t.SendsInOrder (rest ++ [x]))
    (hkeep : s.nextDone ≠ some (.request [0x10]) → s.nextDone ≠ some (.request [0x20]) →
      (∀ operands, s.nextDone = some (.request (0x30 :: operands)) → t.response ≠ some ⟨.ok, []⟩) →
      t.SendsInOrder rest) : KeepsSendOrder order s t := by
  obtain ⟨sent, rfl, hsent⟩ := hfirst
  refine ⟨sent.length, by simp, ?_, hreset, ?_, ?_⟩
  · rw [List.take_left, hsent]
  · rwa [List.drop_left]
  · rwa [List.drop_left]

theorem KeepsSendOrder.of_idle (hidle : s.nextDone = none) (h : s.SendsInOrder order) : KeepsSendOrder order s s := by
  refine .of_sendsFirst (.of_sent rfl order) (fun e => ?_) (fun operands e => ?_) fun _ _ _ => h
  · rw [hidle] at e
    exact e.elim nofun nofun
  · rw [hidle] at e
    cases e

/-- What an input does to the pending frames is what the step owes. -/
theorem InputSends.keepsSendOrder {i : Input} (hnext : s.nextDone = some i) (hm : s.cfg.chip = mcp2515)
    (hm' : t.cfg.chip = mcp2515) (h : s.chip.SendsInOrder s.can.slotPrio order) (hi : InputSends order i s t) :
    KeepsSendOrder order s t := by
  have hiff (rest : List (Fin 3)) := State.sendsInOrder_iff (s := t) (order := rest) hm'
  cases hi with
  | keeps hreset hinit hrefused hon =>
    obtain ⟨rest, hfirst, hrest⟩ := hon.chip hm _ _ h
    rw [← hon.slotPrio] at hrest
    refine .of_sendsFirst hfirst (fun e => ?_) (fun operands e hr => ?_) fun _ _ _ => (hiff rest).mpr hrest
    · rw [hnext] at e
      exact (e.elim (fun e => hreset (Option.some.inj e)) fun e => hinit (Option.some.inj e)).elim
    · rw [hnext] at e
      exact absurd hr (hrefused operands (Option.some.inj e))
  | resets hi hnone =>
    obtain ⟨rest, hfirst, hnone⟩ := hnone
    refine .of_sendsFirst hfirst (fun _ => (hiff []).mpr hnone) (fun operands e hr => ?_) fun hreset hinit _ => ?_
    · rw [hnext] at e
      cases e
      simp at hi
    · rw [hnext] at hreset hinit
      rcases hi with rfl | rfl
      · exact absurd rfl hreset
      · exact absurd rfl hinit
  | accepts operands hi hr rest x hfirst hrest =>
    subst hi
    refine .of_sendsFirst hfirst (fun e => ?_) (fun _ _ _ => ⟨x, (hiff _).mpr hrest⟩) fun _ _ hrefused => ?_
    · rw [hnext] at e
      simp at e
    · exact absurd hr (hrefused operands hnext)

end

theorem step_cfg {s t : State} (h : step s = .next t) : t.cfg = s.cfg := by
  rcases step_outcome h with rfl | ⟨u, hu, rfl⟩
  · rfl
  · rw [sieSettle_cfg, hu.cfg]

/-- Settles O53: what the next input does to the pending frames, which the SIE's settling leaves alone. -/
theorem stepKeepsTheSendOrder : Obligations.StepKeepsTheSendOrder := by
  intro s t order hm ht hb hs hspares hstep
  change KeepsSendOrder order s t
  have h := (State.sendsInOrder_iff hm).mp hs
  rcases step_eq_next hstep with ⟨-, hnone, rfl⟩ | ⟨bytes, u, hbench, -, -⟩ | ⟨i, rest, u, -, hinputs, hu, rfl⟩
  · exact .of_idle (by simp [State.nextDone, hnone]) hs
  · rw [hb] at hbench
    cases hbench
  · have hnext : s.nextDone = some i := by simp [State.nextDone, hb, hinputs]
    have hsends := stepInput_sends (s := s.accept rest) hm ht h (fun bytes j hi => hspares bytes j (hi ▸ hnext)) hu
    exact hsends.settled.keepsSendOrder hnext hm (by rw [step_cfg hstep, hm]) h

end Sys2Proof.Machine
end


section
/-! PROOF. CAN_RECEIVE: the choice of the buffer, its one transaction, and the result (45_can_rx.md R500 to R507)
(O56). -/

namespace Sys2Proof.Machine

/-! ### The choice of the buffer (45_can_rx.md R500, R501) -/

/-- The buffer of the asserted pin is chosen; with both asserted, the one not serviced last. -/
theorem rxChoice_eq_some_iff {r0 r1 : Bool} {last b : Fin 2} :
    rxChoice r0 r1 last = some b ↔
      (r0 = true ∧ r1 = true ∧ b = 1 - last) ∨ (r0 = true ∧ r1 = false ∧ b = 0) ∨
        (r0 = false ∧ r1 = true ∧ b = 1) := by
  cases r0 <;> cases r1 <;> simp [rxChoice, eq_comm]

section
variable {s : State}

/-- With no pin asserted there is nothing but the response. -/
theorem execCanReceive_none (h0 : (letOutside s).pinNow .rx0 = false)
    (h1 : (letOutside (letOutside s)).pinNow .rx1 = false) :
    execCanReceive s = .next (respond .no [] (letOutside (letOutside s))) := by
  simp only [execCanReceive, samplePin, h0, h1, rxChoice, Bool.and_self, Bool.false_eq_true, if_false]

/-- The buffer that is chosen is serviced. -/
theorem execCanReceive_some {b : Fin 2}
    (h : rxChoice ((letOutside s).pinNow .rx0) ((letOutside (letOutside s)).pinNow .rx1) s.can.rxLast = some b) :
    execCanReceive s = .next (serviceRx b (letOutside (letOutside s))) := by
  simp only [execCanReceive, samplePin, letOutside_can, h]

end

/-! ### The payload (45_can_rx.md R505, R506) -/

theorem Chip.readList_eq_map (c : Chip) :
    ∀ n a : Nat, c.readList a n = (List.range n).map fun j => c.cell (a + j)
  | 0, _ => rfl
  | n + 1, a => by
    rw [Chip.readList, Chip.readList_eq_map c n (a + 1), List.range_succ_eq_map, List.map_cons, List.map_map]
    simp [Function.comp_def, Nat.add_assoc, Nat.add_comm 1]

/-- The eight data bytes of the result: the registers that were read, then 0x00. -/
theorem padPayload_readList (c : Chip) (a n : Nat) :
    padPayload (c.readList a n) = (List.range 8).map fun j => if j < n then c.cell (a + j) else 0x00 := by
  rw [padPayload, Chip.readList_eq_map]
  refine List.ext_getElem (by simp) fun j _ _ => ?_
  rw [List.getElem_take, List.getElem_append]
  by_cases hj : j < n
  · simp [hj]
  · simp only [List.length_map, List.length_range, hj, dite_false, List.getElem_replicate, List.getElem_map,
      List.getElem_range, if_false]

/-! ### Servicing a buffer (45_can_rx.md R502, R503, R507) -/

section
variable (b : Fin 2) (s : State)

theorem serviceRx_can : (serviceRx b s).can = { s.can with rxLast := b } := by simp [serviceRx]

/-- What the chip has become when the buffer is read does not depend on what the driver remembers. -/
theorem serviceRx_chip : (serviceRx b s).chip = (letOutside s).chip.release s.cfg.chip b := by
  simp [serviceRx, letOutside_withCan]

theorem serviceRx_sentOnBus :
    (serviceRx b s).sentOnBus = s.sentOnBus ++
      [s.cfg.chip.cmdReadRx[b] :: List.replicate (5 + (letOutside s).chip.rxLength s.cfg.chip b) 0x00] := by
  simp [serviceRx, State.sentOnBus, letOutside_withCan]

theorem serviceRx_response :
    (serviceRx b s).response = some ⟨.ok, resultBytes ((letOutside s).chip.rxHeader s.cfg.chip b)
      ((letOutside s).chip.readList (s.cfg.chip.rxSidh b + 5) ((letOutside s).chip.rxLength s.cfg.chip b)) s.clock⟩ := by
  simp [serviceRx, txnReadRx, letOutside_withCan]

end

/-- Settles O56: nothing without a pin, else the choice and what the servicing of the chosen buffer does. -/
theorem canReceiveEffect : Obligations.CanReceiveEffect := by
  intro s hm u r0 r1
  have hmu : u.cfg.chip = mcp2515 := by simp only [u, letOutside_cfg, hm]
  refine ⟨execCanReceive_none, fun b hb => ?_⟩
  intro c h p
  have hchoice : rxChoice r0 r1 s.can.rxLast = some b := rxChoice_eq_some_iff.mpr hb
  have hp : c.rxLength mcp2515 b = p := rfl
  refine ⟨serviceRx b u, execCanReceive_some hchoice, ?can, ?sent, ?chip, ?response⟩
  case can => rw [serviceRx_can, letOutside_can, letOutside_can]
  case sent =>
    rw [serviceRx_sentOnBus, hmu, mcp2515_cmdReadRx_get, hp]
    simp [u, State.sentOnBus]
  case chip => rw [serviceRx_chip, hmu]
  case response =>
    have hdata : mcp2515.rxSidh b + 5 = 0x66 + 0x10 * b.val := by rw [mcp2515_rxSidh]; omega
    rw [serviceRx_response, hmu, hdata, hp, resultBytes, padPayload_readList, letOutside_clock,
      letOutside_clock]
    rfl

end Sys2Proof.Machine
end


section
/-! PROOF. The block's exceptions that leave no trace: a control request that stalls (60_exceptions.md R601), and a
client request with no op code of the table (R605). -/

namespace Sys2Proof.Machine

/-! ### A control request that stalls (60_exceptions.md R601) -/

/-- A control request raises the stall, and that is all it does, or it leaves the stall state as it was. -/
theorem SetupOutcome.stalls_or_keeps {s t : State} (h : SetupOutcome s t) :
    t = raiseStall s ∨ t.ctl.stall = s.ctl.stall := by
  cases h with
  | stalls => exact .inl rfl
  | configures c hc u hu ho =>
    rw [bulkReset_eq] at hu
    cases hu
    refine .inr ?_
    split <;> rfl
  | _ => exact .inr rfl

/-- Settles O38: no request rule but the stall itself sets the stall state. -/
theorem stalledRequestLeavesNoPartialChange : Obligations.StalledRequestLeavesNoPartialChange := by
  intro i s t hi ht hs hstall
  rcases (exec_setupOutcome hi ht).stalls_or_keeps with hraised | hkept
  · exact hraised
  · rw [hkept, hs] at hstall
    cases hstall

/-! ### A client request with an unknown op code (60_exceptions.md R605) -/

theorem decodeClient_unknown {op : Byte} (operands : List Byte)
    (h : op.toNat ∉ [0x01, 0x02, 0x03, 0x04, 0x05, 0x06, 0x10, 0x11, 0x12, 0x13, 0x14, 0x20, 0x21, 0x22, 0x23, 0x24,
      0x25, 0x30, 0x31]) : decodeClient (op :: operands) = .error (.illegalOp op) := by
  simp only [decodeClient]
  split
  case h_20 => rfl
  all_goals next hop => rw [hop] at h; exact absurd (by decide) h

theorem stepRequest_of_illegal {bytes : List Byte} {op : Byte} (h : decodeClient bytes = .error (.illegalOp op))
    (s : State) : stepRequest bytes s = .next (respond .illegal [] s) := by
  simp only [stepRequest, h]

/-- Settles O4: the request is answered at once, and the SIE's settling finds nothing to do after it. -/
theorem unknownOpCodeIsIllegal : Obligations.UnknownOpCodeIsIllegal := by
  intro op operands rest s hop hb hi t
  have hillegal := stepRequest_of_illegal (decodeClient_unknown operands hop) (s.accept rest)
  have hstep : step s = .next (sieSettle t) := by
    rw [step_of_input hb hi]
    exact congrArg (andThen · _) hillegal
  refine ⟨hstep, fun hs => ?_⟩
  have ht : t.Ep0InStep := ⟨hs.armed, hs.out, hs.in_, hs.order, hs.reset, hs.setup, hs.lineCoding⟩
  rw [hstep, sieSettle_of_settled ht.settled]

end Sys2Proof.Machine
end

section
/-! PROOF. The chip takes the configuration operations in configuration mode only (60_exceptions.md R613 item 5,
70_reset_and_hazards.md R725) (O45). -/

namespace Sys2Proof.Machine

/-! ### The writes of the bit timing (43_can_config.md R402) -/

/-- The writes of CAN_SET_TIMING. -/
def timingBytes (c1 c2 c3 : Byte) : List (Byte × List Byte) := [(0x2A, [c1]), (0x29, [c2]), (0x28, [c3])]

theorem Quiet.timingWrites_chip {p : Pins} {s : State} (h : Quiet p s) (c1 c2 c3 : Byte) :
    (timingWrites c1 c2 c3 s).chip = s.chip.writeAll (timingBytes c1 c2 c3) := by
  rw [← Quiet.txnWrites_chip _ h]
  simp only [timingWrites, h.table]
  rfl

/-! ### Outside configuration mode -/

/-- Every register that a write reaches is one of the masks, the filters and CNF1 to CNF3. -/
def WritesConfiguration (w : Byte × List Byte) : Prop := ∀ i < w.2.length, configOnly (w.1.toNat + i) = true

theorem Chip.writeList_of_ignored {c : Chip} (hc : c.inConfigMode mcp2515 = false) : ∀ (vs : List Byte) (a : Nat),
    (∀ i < vs.length, configOnly (a + i) = true) → c.writeList mcp2515 a vs = c
  | [], _, _ => rfl
  | v :: vs, a, h => by
    have ha : configOnly a = true := h 0 (by simp)
    have hignored : c.ignores mcp2515 a = true := by
      rw [Chip.ignores_mcp2515 c (configOnly_lt ha), ha, hc]
      rfl
    have hsame : c.writeAt mcp2515 a v = c := if_pos hignored
    rw [Chip.writeList, hsame]
    refine Chip.writeList_of_ignored hc vs (a + 1) fun i hi => ?_
    rw [Nat.add_right_comm]
    exact h (i + 1) (by simpa using hi)

theorem Chip.writeAll_of_ignored {c : Chip} (hc : c.inConfigMode mcp2515 = false) :
    ∀ ws : List (Byte × List Byte), (∀ w ∈ ws, WritesConfiguration w) → c.writeAll ws = c
  | [], _ => rfl
  | w :: ws, h => by
    obtain ⟨hw, hws⟩ := List.forall_mem_cons.mp h
    rw [Chip.writeAll, Chip.writeList_of_ignored hc w.2 _ hw]
    exact Chip.writeAll_of_ignored hc ws hws

theorem writesConfiguration_of_one {a : Byte} (v : Byte) (h : configOnly a.toNat = true) :
    WritesConfiguration (a, [v]) := fun i hi => by
  have : i = 0 := by simpa using hi
  rwa [this]

theorem writesConfiguration_of_id {a : Byte} (v0 v1 v2 v3 : Byte) (h : a ∈ mcp2515.rxf.toList ++ mcp2515.rxm.toList) :
    WritesConfiguration (a, [v0, v1, v2, v3]) :=
  (by decide : ∀ a ∈ mcp2515.rxf.toList ++ mcp2515.rxm.toList, ∀ i < 4, configOnly (a.toNat + i) = true) a h

theorem timingBytes_writesConfiguration (c1 c2 c3 : Byte) : ∀ w ∈ timingBytes c1 c2 c3, WritesConfiguration w := by
  simp only [timingBytes, List.forall_mem_cons]
  exact ⟨writesConfiguration_of_one _ rfl, writesConfiguration_of_one _ rfl, writesConfiguration_of_one _ rfl, nofun⟩

theorem maskBytes_writesConfiguration (m0 m1 m2 m3 : Byte) : ∀ w ∈ maskBytes m0 m1 m2 m3, WritesConfiguration w := by
  simp only [maskBytes, List.forall_mem_cons]
  exact ⟨writesConfiguration_of_id _ _ _ _ (by decide), writesConfiguration_of_id _ _ _ _ (by decide), nofun⟩

theorem codeBytes_writesConfiguration (c0 c1 c2 c3 : Byte) : ∀ w ∈ codeBytes c0 c1 c2 c3, WritesConfiguration w := by
  simp only [codeBytes, List.forall_mem_cons]
  refine ⟨?_, ?_, ?_, ?_, ?_, ?_, nofun⟩ <;> exact writesConfiguration_of_id _ _ _ _ (by decide)

/-- Outside configuration mode the chip ignores every configuration operation (60_exceptions.md R613 item 5). -/
theorem configurationOperations_ignored {p : Pins} {s : State} (h : Quiet p s)
    (hc : s.chip.inConfigMode mcp2515 = false) :
    (∀ c1 c2 c3, (timingWrites c1 c2 c3 s).chip = s.chip) ∧
      (∀ m0 m1 m2 m3, (maskWrites m0 m1 m2 m3 s).chip = s.chip) ∧
      ∀ c0 c1 c2 c3, (codeWrites c0 c1 c2 c3 s).chip = s.chip := by
  refine ⟨fun c1 c2 c3 => ?timing, fun m0 m1 m2 m3 => ?mask, fun c0 c1 c2 c3 => ?code⟩
  case timing =>
    rw [h.timingWrites_chip, Chip.writeAll_of_ignored hc _ (timingBytes_writesConfiguration c1 c2 c3)]
  case mask =>
    rw [h.maskWrites_chip, Chip.writeAll_of_ignored hc _ (maskBytes_writesConfiguration m0 m1 m2 m3)]
  case code =>
    rw [h.codeWrites_chip, Chip.writeAll_of_ignored hc _ (codeBytes_writesConfiguration c0 c1 c2 c3)]

/-! ### In configuration mode -/

section
variable {c : Chip}

/-- A register holds its byte in the bits that a write changes. -/
theorem Chip.Holds.masked {a : Nat} {vs : List Byte} (h : c.Holds a vs) (i : Nat) (hi : i < vs.length) :
    c.cell (a + i) &&& writableBits (a + i) = vs[i] &&& writableBits (a + i) := by
  refine BitVec.eq_of_getLsbD_eq fun j _ => ?_
  rw [BitVec.getLsbD_and, BitVec.getLsbD_and]
  cases hw : (writableBits (a + i)).getLsbD j with
  | false => rw [Bool.and_false, Bool.and_false]
  | true => rw [h i hi j hw]

/-- CNF1 and CNF2 hold all of their bytes, and CNF3 the bits that it has (43_can_config.md R401). -/
theorem Chip.cnf_of_timing (hc : c.inConfigMode mcp2515 = true) (c1 c2 c3 : Byte) :
    let d := c.writeAll (timingBytes c1 c2 c3)
    d.cell 0x2A = c1 ∧ d.cell 0x29 = c2 ∧ d.cell 0x28 &&& 0xC7 = c3 &&& 0xC7 ∧
      ∀ a, a < 0x28 ∨ 0x2A < a → d.cell a = c.cell a := by
  intro d
  have hholds : ∀ w ∈ timingBytes c1 c2 c3, d.Holds w.1.toNat w.2 :=
    Chip.holds_writeAll _ hc (by simp [timingBytes, WritesApart]) (by simp [timingBytes])
  simp only [timingBytes, List.forall_mem_cons] at hholds
  obtain ⟨cnf1, cnf2, cnf3, -⟩ := hholds
  refine ⟨cnf1.cell 0 (by simp) rfl, cnf2.cell 0 (by simp) rfl, cnf3.masked 0 (by simp), fun a ha => ?_⟩
  exact Chip.cell_writeAll_other _ c (by simp [timingBytes]; omega)

/-- A mask or a filter holds all of its bytes, but of SIDL the bits that it has (43_can_config.md R401). -/
theorem Chip.Holds.idCells {a : Byte} {v0 v1 v2 v3 : Byte} (h : c.Holds a.toNat [v0, v1, v2, v3])
    (ha : a ∈ mcp2515.rxf.toList ++ mcp2515.rxm.toList) :
    c.cell a.toNat = v0 ∧
      c.cell (a.toNat + 1) &&& writableBits (a.toNat + 1) = v1 &&& writableBits (a.toNat + 1) ∧
      c.cell (a.toNat + 2) = v2 ∧ c.cell (a.toNat + 3) = v3 := by
  obtain ⟨w0, -, w2, w3, -⟩ := writableBits_id a ha
  exact ⟨h.cell 0 (by simp) w0, h.masked 1 (by simp), h.cell 2 (by simp) w2, h.cell 3 (by simp) w3⟩

/-- Both masks hold the complement of the operand (43_can_config.md R407). -/
theorem Chip.masks_of_mask (hc : c.inConfigMode mcp2515 = true) (m0 m1 m2 m3 : Byte) :
    let d := c.writeAll (maskBytes m0 m1 m2 m3)
    (∀ a ∈ [0x20, 0x24], d.cell a = ~~~m0 ∧ d.cell (a + 1) &&& 0xE3 = ~~~m1 &&& 0xE3 ∧
        d.cell (a + 2) = ~~~m2 ∧ d.cell (a + 3) = ~~~m3) ∧
      ∀ a, a < 0x20 ∨ 0x27 < a → d.cell a = c.cell a := by
  intro d
  have hholds : ∀ w ∈ maskBytes m0 m1 m2 m3, d.Holds w.1.toNat w.2 :=
    Chip.holds_writeAll _ hc (by simp [maskBytes, WritesApart]) (by simp [maskBytes])
  simp only [maskBytes, nativeMask_eq, List.forall_mem_cons] at hholds
  obtain ⟨mask0, mask1, -⟩ := hholds
  refine ⟨?_, fun a ha => Chip.cell_writeAll_other _ c (by simp [maskBytes]; omega)⟩
  simp only [List.forall_mem_cons]
  exact ⟨mask0.idCells (by decide), mask1.idCells (by decide), nofun⟩

/-- The filters for standard frames hold the code with EXIDE clear (43_can_config.md R408). -/
theorem Chip.Holds.standardCode {a : Byte} {c0 c1 c2 c3 : Byte} (h : c.Holds a.toNat [c0, c1 &&& 0xF7, c2, c3])
    (ha : a ∈ mcp2515.rxf.toList) (hw : writableBits (a.toNat + 1) = 0xEB) :
    c.cell a.toNat = c0 ∧ c.cell (a.toNat + 1) &&& 0xEB = c1 &&& 0xE3 ∧ c.cell (a.toNat + 2) = c2 ∧
      c.cell (a.toNat + 3) = c3 := by
  obtain ⟨sidh, sidl, eid8, eid0⟩ := h.idCells (List.mem_append_left _ ha)
  rw [hw, BitVec.and_assoc] at sidl
  exact ⟨sidh, sidl, eid8, eid0⟩

/-- The filters for extended frames hold the code with EXIDE set (43_can_config.md R408). -/
theorem Chip.Holds.extendedCode {a : Byte} {c0 c1 c2 c3 : Byte} (h : c.Holds a.toNat [c0, c1 ||| 0x08, c2, c3])
    (ha : a ∈ mcp2515.rxf.toList) (hw : writableBits (a.toNat + 1) = 0xEB) :
    c.cell a.toNat = c0 ∧ c.cell (a.toNat + 1) &&& 0xEB = (c1 &&& 0xE3) ||| 0x08 ∧ c.cell (a.toNat + 2) = c2 ∧
      c.cell (a.toNat + 3) = c3 := by
  have hexide : ∀ x : Byte, (x ||| 0x08) &&& 0xEB = (x &&& 0xE3) ||| 0x08 := by decide
  obtain ⟨sidh, sidl, eid8, eid0⟩ := h.idCells (List.mem_append_left _ ha)
  rw [hw, hexide] at sidl
  exact ⟨sidh, sidl, eid8, eid0⟩

/-- Of each pair of filters with the code, one is for standard frames and one for extended ones (43_can_config.md
R408). -/
theorem Chip.filters_of_code (hc : c.inConfigMode mcp2515 = true) (c0 c1 c2 c3 : Byte) :
    let d := c.writeAll (codeBytes c0 c1 c2 c3)
    (∀ a ∈ [0x00, 0x08, 0x14], d.cell a = c0 ∧ d.cell (a + 1) &&& 0xEB = c1 &&& 0xE3 ∧
        d.cell (a + 2) = c2 ∧ d.cell (a + 3) = c3) ∧
      (∀ a ∈ [0x04, 0x10, 0x18], d.cell a = c0 ∧ d.cell (a + 1) &&& 0xEB = (c1 &&& 0xE3) ||| 0x08 ∧
        d.cell (a + 2) = c2 ∧ d.cell (a + 3) = c3) ∧
      ∀ a, (0x0B < a ∧ a < 0x10) ∨ 0x1B < a → d.cell a = c.cell a := by
  intro d
  have hholds : ∀ w ∈ codeBytes c0 c1 c2 c3, d.Holds w.1.toNat w.2 :=
    Chip.holds_writeAll _ hc (by simp [codeBytes, WritesApart]) (by simp [codeBytes])
  simp only [codeBytes, List.forall_mem_cons] at hholds
  obtain ⟨filter0, filter1, filter2, filter3, filter4, filter5, -⟩ := hholds
  refine ⟨?_, ?_, fun a ha => Chip.cell_writeAll_other _ c (by simp [codeBytes]; omega)⟩
  · simp only [List.forall_mem_cons]
    exact ⟨filter0.standardCode (by decide) rfl, filter2.standardCode (by decide) rfl,
      filter4.standardCode (by decide) rfl, nofun⟩
  · simp only [List.forall_mem_cons]
    exact ⟨filter1.extendedCode (by decide) rfl, filter3.extendedCode (by decide) rfl,
      filter5.extendedCode (by decide) rfl, nofun⟩

end

/-- Settles O45: the chip ignores every write that the operations make, or takes it. -/
theorem configurationIsTakenInItsModeOnly : Obligations.ConfigurationIsTakenInItsModeOnly := by
  intro s hm hd
  have hquiet : Quiet s.pins s := ⟨hm, hd, rfl⟩
  refine ⟨fun hc i hi => ?ignored, fun hc => ⟨fun c1 c2 c3 => ?timing, fun k hk => ?preset, fun m0 m1 m2 m3 => ?mask,
    fun c0 c1 c2 c3 => ?code⟩⟩
  case ignored =>
    obtain ⟨timing, mask, code⟩ := configurationOperations_ignored hquiet hc
    rcases hi with ⟨c1, c2, c3, rfl⟩ | ⟨k, hk, rfl⟩ | ⟨m0, m1, m2, m3, rfl⟩ | ⟨c0, c1, c2, c3, rfl⟩
    · exact ⟨_, rfl, rfl, timing c1 c2 c3⟩
    · exact ⟨_, execCanSetPreset_of_lt (Nat.lt_succ_of_le hk) s, rfl, timing _ _ _⟩
    · exact ⟨_, rfl, rfl, mask m0 m1 m2 m3⟩
    · exact ⟨_, rfl, rfl, code c0 c1 c2 c3⟩
  case timing =>
    refine ⟨_, rfl, rfl, ?_⟩
    rw [respond_chip, hquiet.timingWrites_chip]
    exact Chip.cnf_of_timing hc c1 c2 c3
  case preset =>
    refine ⟨_, execCanSetPreset_of_lt hk s, rfl, ?_⟩
    rw [respond_chip, hquiet.timingWrites_chip]
    exact Chip.cnf_of_timing hc _ _ _
  case mask =>
    refine ⟨_, rfl, rfl, ?_⟩
    rw [respond_chip, hquiet.maskWrites_chip]
    exact Chip.masks_of_mask hc m0 m1 m2 m3
  case code =>
    refine ⟨_, rfl, rfl, ?_⟩
    rw [respond_chip, hquiet.codeWrites_chip]
    exact Chip.filters_of_code hc c0 c1 c2 c3

end Sys2Proof.Machine
end

section
/-! PROOF. An operation over the serial bus leaves the USB function alone (70_reset_and_hazards.md R702) (O16). -/

namespace Sys2Proof.Machine

/-- The USB function is a part of what work on the serial bus leaves as it was. -/
theorem BusOnly.sameUsb {s t : State} (h : BusOnly s t) : SameUsb s t where
  cfg := h.cfg
  dev := h.dev
  ctl := h.ctl
  bds := h.bds
  byte a := by rw [h.mem]
  bin := h.bin
  bout := h.bout
  sie := h.sie
  pulses := h.pulses
  answer := h.answer
  inputs := h.inputs
  bench := h.bench

/-- Settles O16: such an operation works on the serial bus only. -/
theorem canOperationsLeaveUsbAlone : Obligations.CanOperationsLeaveUsbAlone :=
  fun _ _ _ hi h => (exec_busOnly hi h).sameUsb

end Sys2Proof.Machine
end

section
/-! PROOF. The state after power-on reset (70_reset_and_hazards.md R701): its values (O8), and that the invariants hold
in it (O9). -/

namespace Sys2Proof.Machine

/-! ### The USB function at reset -/

section
variable (cfg : Params)

/-- The endpoint-0 OUT buffer waits for the first SETUP packet. -/
theorem State.resetWith_bd_ep0out : (State.resetWith cfg).bd .ep0out = ⟨.sie, cfg.ep0Size.bytes⟩ := rfl

/-- Every other buffer is the block's and empty. -/
theorem State.resetWith_bd_other : ∀ {b : Buf}, b ≠ .ep0out → (State.resetWith cfg).bd b = ⟨.sw, 0⟩
  | .ep0out, h => absurd rfl h
  | .ep0in, _ => rfl
  | .bin 0, _ => rfl
  | .bin 1, _ => rfl
  | .bout 0, _ => rfl
  | .bout 1, _ => rfl

theorem State.resetWith_bd_bin (k : Fin 2) : (State.resetWith cfg).bd (.bin k) = ⟨.sw, 0⟩ :=
  State.resetWith_bd_other cfg nofun

theorem State.resetWith_bd_bout (k : Fin 2) : (State.resetWith cfg).bd (.bout k) = ⟨.sw, 0⟩ :=
  State.resetWith_bd_other cfg nofun

theorem State.resetWith_halt (e : Endpoint) : (State.resetWith cfg).dev.halt.get e = false := by
  cases e <;> rfl

end

/-- Settles O8: the halts and the bulk descriptors by what is said of each, the rest as the reset state gives it. -/
theorem resetValues : Obligations.ResetValues := by
  intro cfg s
  refine ⟨rfl, rfl, rfl, State.resetWith_halt cfg, rfl, rfl, rfl, rfl, rfl, State.resetWith_bd_ep0out cfg, rfl,
    State.resetWith_bd_other cfg nofun, State.resetWith_bd_bin cfg, State.resetWith_bd_bout cfg, ?_⟩
  exact ⟨rfl, rfl, rfl, rfl, rfl, rfl, rfl, rfl, rfl, rfl, rfl, rfl, rfl⟩

/-! ### The invariants at reset -/

section
variable (cfg : Params)

theorem State.resetWith_count_le (b : Buf) : ((State.resetWith cfg).bd b).count ≤ b.size cfg := by
  by_cases hb : b = .ep0out
  · subst hb
    exact Nat.le_refl cfg.ep0Size.bytes
  · rw [State.resetWith_bd_other cfg hb]
    exact Nat.zero_le _

/-- The device is not configured, the managers are at their start and no transfer is in progress. -/
theorem State.resetWith_inv : (State.resetWith cfg).Inv where
  memory := rfl
  busIdle := rfl
  clock := Nat.zero_lt_succ _
  config := .inl rfl
  count := State.resetWith_count_le cfg
  fillOwned := nofun
  fill := cfg.bulkSize.property.1
  idle := cfg.idleFlushPolls.property
  idleFill _ := rfl
  unread := nofun
  notConfigured _ := ⟨rfl, rfl, fun k => ⟨congrArg Bd.own (State.resetWith_bd_bin cfg k),
    congrArg Bd.own (State.resetWith_bd_bout cfg k)⟩⟩
  setup := nofun
  stalled := (CtlOk.idle false).stalled
  oneStage := (CtlOk.idle false).oneStage
  transfer := (CtlOk.idle false).transfer

/-- The block has all bulk buffers, and both it and the SIE begin at buffer 0. -/
theorem State.resetWith_pingPong : (State.resetWith cfg).PingPong := by
  constructor
  · refine Alternates.begins 0 fun j => ?_
    rw [State.resetWith_bd_bin, State.resetWith_bd_bin]
  · refine Alternates.begins 0 fun j => ?_
    rw [State.resetWith_bd_bout, State.resetWith_bd_bout]

/-- The SIE has the endpoint-0 OUT buffer, and no event waits. -/
theorem State.resetWith_ep0InStep : (State.resetWith cfg).Ep0InStep where
  armed := nofun
  out := nofun
  in_ := nofun
  order := .nil
  reset := nofun
  setup := nofun
  lineCoding := nofun

/-- A register of the chip at power-on (assumption 11). -/
theorem State.resetWith_cell {a : Nat} (h : a < 128) :
    (State.resetWith cfg).chip.cell a = (cfg.chip.info a).reset.getD 0x00 := by
  simp [State.resetWith, Chip.cell, chipPowerOn, ChipTable.info, Vector.getD, h]

variable {cfg}

theorem State.resetWith_txreq (hm : cfg.chip = mcp2515) (x : Fin 3) :
    (State.resetWith cfg).chip.txreq mcp2515 x = false := by
  have hctrl : ∀ x, (mcp2515.ctrl x).toNat < 128 ∧ chipResetValue (mcp2515.ctrl x).toNat = some 0x00 := by decide
  obtain ⟨hmap, hreset⟩ := hctrl x
  have hreg : (State.resetWith cfg).chip.reg (mcp2515.ctrl x) = 0x00 := by
    rw [Chip.reg, State.resetWith_cell cfg hmap, hm, mcp2515_info hmap, referenceRegister, hreset]
    rfl
  rw [Chip.txreq, hreg]
  rfl

/-- No slot is requested, and no frame is on the bus. -/
theorem State.resetWith_sendsInOrder (hm : cfg.chip = mcp2515) : (State.resetWith cfg).SendsInOrder [] := by
  refine (State.sendsInOrder_iff (s := State.resetWith cfg) hm).mpr ⟨.nil, fun x => ?_, nofun, .nil, nofun⟩
  rw [State.resetWith_txreq hm]
  exact ⟨nofun, nofun⟩

end

/-- Settles O9: each invariant by its own lemma, the alternation because the block has every bulk buffer. -/
theorem invariantsHoldAtReset : Obligations.InvariantsHoldAtReset :=
  fun cfg => ⟨State.resetWith_inv cfg, .inr (State.resetWith_pingPong cfg), State.resetWith_ep0InStep cfg,
    State.resetWith_sendsInOrder⟩

end Sys2Proof.Machine
end
